-- ==== Sys2Proof/Word.lean ====
section
/-!
DEFINITION. The word types of the 4208 and the numbers that name its parts (00_scope.md, section 1.5 and 1.6).
-/

namespace Sys2Proof

/-- A word: 64 bits of data, the unit of storage and transfer (00_scope, section 1.5). -/
abbrev Word := BitVec 64

/-- What one 32-bit access of the host port carries, and one half of a word (00_scope, section 1.6). -/
abbrev Half := BitVec 32

/-- The eight words of a burst, word k at word address 8b + k (R2). -/
abbrev BurstData := Vector Word 8

/-- A queue, Q0 to Q3. -/
abbrev QueueId := Fin 4

/-- A job slot, 0 to 7. -/
abbrev SlotId := Fin 8

/-- A tag, 0 to 31. -/
abbrev TagId := Fin 32

/-- A bank and its bank port, 0 to 7. -/
abbrev BankId := Fin 8

/-- A request ID of the external port, 0 to 15. -/
abbrev ReqId := Fin 16

/-- An index of the segment table, 0 to 511. -/
abbrev SegIndex := Fin 512

/-- A burst number within a bank, 0 to 1023 (R2). -/
abbrev BankBurst := Fin 1024

/-- A word address within a bank, 0 to 8191 (R2). -/
abbrev BankWord := Fin 8192

end Sys2Proof
end

