-- ==== Sys2Proof/Syntax.lean ====
section
/-!
DEFINITION. The commands of the 4208: one constructor per row of spec/opcode_table.json. A command is one happening
(00_scope, section 1.3): a host access, an event of the external channels, the clock or the reset pin, or a step
that a block of the controller takes on its own.
-/

namespace Sys2Proof

/-- The result a response carries (R132). -/
inductive ResponseResult where
  | ok
  | error
  deriving DecidableEq, Repr

/-- The commands, each a row of spec/opcode_table.json. -/
inductive Instr where
  /-- PUSH: a host write to QnCOMMIT; the data written is not used (R22). -/
  | push (q : QueueId)
  /-- START: a host write to QnCTL with code 1 (R35). -/
  | start (q : QueueId)
  /-- STOP: a host write to QnCTL with code 2 (R36). -/
  | stop (q : QueueId)
  /-- RESUME: a host write to QnCTL with code 3 (R37). -/
  | resume (q : QueueId)
  /-- SKIP: a host write to QnCTL with code 4 (R38). -/
  | skip (q : QueueId)
  /-- ABORT: a host write to QnCTL with code 5 (R39). -/
  | abort (q : QueueId)
  /-- TAKE: a RUNNING queue takes its head (R25). -/
  | take (q : QueueId)
  /-- BURST_ISSUE: an ACTIVE job issues its next burst (R66, R67). -/
  | burstIssue (i : SlotId)
  /-- BURST_READ_TAKE: a bank port takes a waiting burst read (R70, R149). -/
  | burstReadTake (p : BankId)
  /-- BURST_WRITE_TAKE: a bank port takes a waiting burst write (R72, R149). -/
  | burstWriteTake (p : BankId)
  /-- WORD_READ_TAKE: a bank port takes the held aperture word read (R155). -/
  | wordReadTake
  /-- WORD_WRITE_TAKE: a bank port takes the held aperture word write (R154). -/
  | wordWriteTake
  /-- OFFER: the external port chooses a waiting request and offers it (R135). -/
  | offer
  /-- ACCEPTANCE: the external controller accepts the standing offer (R137). -/
  | acceptance
  /-- RESPONSE: the external controller presents a response (R132, R138). -/
  | response (d : ReqId) (result : ResponseResult) (data : BurstData)
  /-- EXPIRY: the timer of an ID runs out (R139). -/
  | expiry (d : ReqId)
  /-- CLEAR: a host write to TAGt; with bit 31 set it is the CLEAR happening (R49, R182). -/
  | clear (t : TagId) (value : Half)
  /-- SEG_WRITE: a host write to SEGm (R117, R184). -/
  | segWrite (m : SegIndex) (value : Half)
  /-- XCFG_WRITE: a host write to XCFG (R146). -/
  | xcfgWrite (value : Half)
  /-- ICAUSE_WRITE: a host write to ICAUSE (R172). -/
  | icauseWrite (value : Half)
  /-- IMASK_WRITE: a host write to IMASK (R174). -/
  | imaskWrite (value : Half)
  /-- ICPLTH_WRITE: a host write to ICPLTH (R173). -/
  | icplthWrite (value : Half)
  /-- CFPOP: a host write to CFPOP; the data written is not used (R169). -/
  | cfpop
  /-- APDHI_WRITE: a host write to APDHI commits a word (R154). -/
  | apdhiWrite (value : Half)
  /-- APDLO_READ: a host read of APDLO places a word read (R155). -/
  | apdloRead
  /-- APDHI_READ: a host read of APDHI returns the read latch and advances the address (R155). -/
  | apdhiRead
  /-- APSTAT_WRITE: a host write to APSTAT (R156). -/
  | apstatWrite (value : Half)
  /-- REGISTER_WRITE: a host write at a window address (R177, R179). -/
  | registerWrite (addr : BitVec 12) (value : Half)
  /-- SOFT_RESET: a host write to SYSCTL; with bit 0 set it is the soft reset (R180). -/
  | softReset (value : Half)
  /-- PIN_RESET: the reset pin is asserted (R148, R175). -/
  | pinReset
  /-- PIN_RESET_END: the reset pin is deasserted (R148). -/
  | pinResetEnd
  /-- CONTROL_CODE_REFUSED: a host write to QnCTL with code 0, 6 or 7 (R34, R183). -/
  | controlCodeRefused (q : QueueId) (value : Half)
  deriving DecidableEq, Repr

end Sys2Proof
end

