-- ==== Sys2Proof/Decode.lean ====
section
/-!
DEFINITION. The command that a word spells by the bits of spec/opcode_table.json. The table gives no row any bits
("fields" is empty in all 32 rows, and none has a mask or a pattern), so no word spells a command: commands reach the
block as happenings, not as encoded words (log entry 17).
-/

namespace Sys2Proof

/-- The command a table word spells: none, since no row of the table has bits. -/
def decodeTableWord (_nbits _w : Nat) : Option Instr := none

end Sys2Proof
end

