-- ==== Sys2Proof/Config.lean ====
section
/-!
DEFINITION. What is fixed for the machine: the capacities the rules state, and the free values, which the manual
leaves open. A free value is an opaque constant: nothing can be proved of it, so a claim holds whatever it is.
-/

namespace Sys2Proof.Config

/-- A queue holds up to 32 commands (R16). -/
abbrev queueDepth : Nat := 32

/-- The completion FIFO holds up to 64 records (R163). -/
abbrev fifoDepth : Nat := 64

/-- The interlock table holds up to 16 entries (R103). -/
abbrev lockEntries : Nat := 16

/-- A job that is not serialized has at most 4 bursts in flight (R66). -/
abbrev inFlightLimit : Nat := 4

/-- The saturation count sticks at 65535 (R96). -/
abbrev saturationLimit : Nat := 65535

/-- The data of a bank word that nothing has written since power-up, by key (bank × 8192 + word).
"Unknown" (R9): a FREE VALUE, one per word, since a second read of an unwritten word gives the same data (R7).
DESIGN CHOICE, log entry 3. -/
opaque powerUpData : Nat → Word

/-- Whether the check bits of such a word agree with its data. "May report a parity error or may not" (R9):
a FREE VALUE, one per word. DESIGN CHOICE, log entry 3. -/
opaque powerUpAgrees : Nat → Bool

end Sys2Proof.Config
end

