-- ==== Sys2Proof/Machine/Types.lean ====
section
/-!
DEFINITION. The data each block of the 4208 holds: commands, job records and burst contexts, the interlock, the
segment table, the external port, the banks, completion records and interrupt causes.
-/

namespace Sys2Proof.Machine

/-! ## Commands (R17 to R20, R185) -/

/-- A command's four 32-bit parts, as staged and committed (R21, R185). -/
abbrev Parts := Vector Half 4

/-- Element width (R1). -/
inductive Width where
  | w8
  | w16
  | w32
  | w64
  deriving DecidableEq, Repr

/-- The ten reduction operators (R18, R90 to R94). -/
inductive Op where
  | add
  | adds
  | addu
  | maxs
  | mins
  | maxu
  | minu
  | and
  | or
  | xor
  deriving DecidableEq, Repr

/-- Report policies (R18, R84). -/
inductive Report where
  | always
  | onFault
  | never
  deriving DecidableEq, Repr

/-- A side of one bank, or of external memory direct or through the segment table, with its 22-bit address or start
index (R18). -/
inductive Side where
  | bank (b : BankId) (a : BitVec 22)
  | ext (a : BitVec 22)
  | extseg (m : BitVec 22)
  deriving DecidableEq, Repr

/-- What a job does: the five MOVE modes and TABLOAD, each with the fields it uses (R18, R19). -/
inductive Work where
  | copy (src dst : Side)
  | fill (pattern : Half) (dst : Side)
  | accum (op : Op) (width : Width) (src dst : Side)
  | merge (op : Op) (width : Width) (accumulate : Bool) (banks : List BankId) (a : BitVec 22) (dst : Side)
  | spread (src : Side) (banks : List BankId) (a : BitVec 22)
  | tabload (bank : BankId) (a : BitVec 22) (start : BitVec 9)
  deriving DecidableEq, Repr

/-- A MOVE or TABLOAD: its four parts as they were pushed, which a job record carries unchanged, the bits its kind does
not use among them (R61, R185), and beside them the fields that decode read from the parts. `count` is in bursts: the
MOVE count, or the TABLOAD entry count ÷ 16 (R61); `tag` is the tag carried, if any (R45). -/
structure JobCommand where
  parts : Parts
  work : Work
  priority : Fin 4
  report : Report
  tag : Option TagId
  count : Nat
  deriving DecidableEq, Repr

/-- A decoded command (R17). -/
inductive Command where
  | job (j : JobCommand)
  | wait (mask : Half) (failOnPoison : Bool)
  | note (mark : BitVec 16) (interrupt : Bool)
  deriving DecidableEq, Repr

/-! ## Faults, statuses, places (R15, R42, R188) -/

/-- The seven fault statuses (R41, R188). -/
inductive JobFault where
  | extRange
  | extError
  | extTimeout
  | bankParity
  | segInvalid
  | segRange
  | segOverrun
  deriving DecidableEq, Repr

/-- End status of a job (R84, R188). -/
inductive Status where
  | ok
  | cancelled
  | fault (f : JobFault)
  deriving DecidableEq, Repr

/-- The code of a halt reason (R42, R188). -/
inductive HaltCode where
  | job (f : JobFault)
  | badKind
  | badForm
  | badLength
  | fencePoisoned
  deriving DecidableEq, Repr

/-- The origin of a halt reason (R42). -/
inductive HaltOrigin where
  | decode
  | fence
  | job
  deriving DecidableEq, Repr

/-- A halt reason (R42). -/
structure HaltReason where
  code : HaltCode
  origin : HaltOrigin
  seq : BitVec 16
  deriving DecidableEq, Repr

/-- Fault space and fault address (R15): a bank word, an external word address, or a segment table index. -/
inductive FaultPlace where
  | bank (b : BankId) (w : BankWord)
  | ext (w : Nat)
  | segtab (n : SegIndex)
  deriving DecidableEq, Repr

/-- A fault with the place it arose. -/
structure PlacedFault where
  fault : JobFault
  place : FaultPlace
  deriving DecidableEq, Repr

/-! ## Queues (R16, R22 to R24, R34) -/

/-- Queue states with the sub-reason of STALLED (R24). -/
inductive QueueState where
  | stopped
  | running
  | stalledSlot
  | stalledRoom
  | fenced
  | halted
  | aborting
  deriving DecidableEq, Repr

/-- Push result (R22, R43). -/
inductive PushResult where
  | none
  | accepted
  | full
  | aborting
  deriving DecidableEq, Repr

/-- Control result (R34). -/
inductive ControlResult where
  | none
  | accepted
  | refused
  deriving DecidableEq, Repr

/-- A held command with the sequence number it was given (R16, R22). -/
structure HeldCommand where
  parts : Parts
  seq : BitVec 16
  deriving DecidableEq, Repr

/-- A command queue. The head sequence number (R23) is computed, see `Queue.headSeq`. -/
structure Queue where
  state : QueueState
  commands : List HeldCommand
  nextSeq : BitVec 16
  jobs : Nat
  halt : Option HaltReason
  pushResult : PushResult
  controlResult : ControlResult
  deriving DecidableEq, Repr

/-- A tag of the scoreboard (R45). -/
structure Tag where
  count : Nat
  poison : Bool
  deriving DecidableEq, Repr

/-! ## Jobs and bursts (R61, R69) -/

/-- One physical burst: of a bank or of external memory. It is also the key of an interlock entry (R104). -/
inductive Place where
  | bank (b : BankId) (k : BankBurst)
  | ext (x : Nat)
  deriving DecidableEq, Repr

/-- Which read of its burst a read request is (R150). -/
inductive ReadRole where
  | source
  | oldDestination
  deriving DecidableEq, Repr

/-- The stage of a read request; once returned it holds its eight words (R69). -/
inductive ReadStage where
  | waiting
  | sent
  | returned (words : BurstData)
  deriving DecidableEq, Repr

/-- A read request of a burst (R69). -/
structure ReadRequest where
  role : ReadRole
  place : Place
  stage : ReadStage
  deriving DecidableEq, Repr

/-- The stage of a write request (R69). -/
inductive WriteStage where
  | waiting
  | sent
  | done
  deriving DecidableEq, Repr

/-- A write request of a burst with its eight words (R69). -/
structure WriteRequest where
  place : Place
  stage : WriteStage
  words : BurstData
  deriving DecidableEq, Repr

/-- Burst states (R69). -/
inductive BurstState where
  | lockWait
  | reading
  | writing
  deriving DecidableEq, Repr

/-- A burst context (R69). Whether it holds an interlock entry is read from the interlock table, see
`State.holdsEntry`. -/
structure Burst where
  index : Nat
  state : BurstState
  sources : List Place
  dests : List Place
  reads : List ReadRequest
  writes : List WriteRequest
  failed : Bool
  deriving DecidableEq, Repr

/-- The segment-walk cursor (R121). -/
structure Cursor where
  index : SegIndex
  stopHeld : Bool
  segment : Nat
  position : Nat
  left : Nat
  deriving DecidableEq, Repr

/-- The state of a slot that is not FREE (section 4.2 of 04). -/
inductive JobState where
  | active
  | draining
  | ending
  | posting
  deriving DecidableEq, Repr

/-- A job record (R61). Bursts in flight is the number of contexts, see `Job.inFlight`. -/
structure Job where
  queue : QueueId
  seq : BitVec 16
  command : JobCommand
  serialized : Bool
  state : JobState
  next : Nat
  done : Nat
  saturation : Nat
  status : Option Status
  place : Option FaultPlace
  cursor : Option Cursor
  bursts : List Burst
  deriving DecidableEq, Repr

/-! ## Interlock (R103, R107) -/

/-- A key with the slot and burst index that hold it or wait for it: an entry of the interlock table (R103) and a
burst of the lock wait list (R107). -/
structure LockRequest where
  key : Place
  slot : SlotId
  burst : Nat
  deriving DecidableEq, Repr

/-- The interlock: its table and its wait list, front first. -/
structure Interlock where
  table : List LockRequest
  waiters : List LockRequest
  deriving DecidableEq, Repr

/-! ## Segment table (R115, R186) -/

/-- A segment table entry; the run length is held as the length minus one. -/
structure SegEntry where
  valid : Bool
  stop : Bool
  lengthMinusOne : BitVec 6
  base : BitVec 20
  deriving DecidableEq, Repr

/-! ## External port (R133, R146) -/

/-- The five configured sizes of external memory (R10). -/
inductive XSize where
  | mib16
  | mib32
  | mib64
  | mib128
  | mib256
  deriving DecidableEq, Repr

/-- Which request of its burst an ID carries (R133). -/
inductive RequestRole where
  | read (r : ReadRole)
  | write
  deriving DecidableEq, Repr

/-- What a BUSY ID holds (R133). The timer holds the microseconds it was started with (log entry 5). -/
structure BusyId where
  slot : SlotId
  burst : Nat
  role : RequestRole
  address : Nat
  accepted : Bool
  timer : Option (BitVec 8)
  deriving DecidableEq, Repr

/-- The state of a request ID (R133). -/
inductive IdState where
  | free
  | busy (b : BusyId)
  | quarantined
  deriving DecidableEq, Repr

/-- The external port. The standing offer is the BUSY ID not yet accepted, see `State.standingOffer`. -/
structure ExtPort where
  ids : Vector IdState 16
  pointer : SlotId
  xsize : XSize
  xtimeout : BitVec 8
  deriving DecidableEq, Repr

/-! ## Banks (R2, R6) -/

/-- A stored bank word: its data, and whether its stored check bits agree with that data (R6, R7; log entry 4). -/
structure StoredWord where
  data : Word
  agrees : Bool
  deriving DecidableEq, Repr

/-- Bank contents: the words written since power-up, by key (bank × 8192 + word), keys strictly rising. -/
abbrev Memory := List (Nat × StoredWord)

/-! ## Host port (R21, R153 to R157) -/

/-- A host access held on the bus (R154, R155, R157). -/
inductive HeldAccess where
  | wordRead (b : BankId) (w : BankWord)
  | wordWrite (b : BankId) (w : BankWord) (data : Word)
  deriving DecidableEq, Repr

/-- The host port: staging, aperture, the held access, and the data the bus returned last. -/
structure HostPort where
  staging : Vector Parts 4
  apBank : BankId
  apWord : BankWord
  writeLatch : Half
  readLatch : Half
  parity : Bool
  held : Option HeldAccess
  readData : Half
  deriving DecidableEq, Repr

/-! ## Completion and interrupts (R161, R165, R171 to R174) -/

/-- The two kinds of job (R17). -/
inductive JobKind where
  | move
  | tabload
  deriving DecidableEq, Repr

/-- A completion record: the fields its kind carries (R161). -/
inductive Record where
  | job (kind : JobKind) (status : Status) (queue : QueueId) (seq : BitVec 16) (tag : Option TagId)
      (done : Nat) (saturation : Nat) (place : Option FaultPlace)
  | note (queue : QueueId) (seq : BitVec 16) (mark : BitVec 16)
  deriving DecidableEq, Repr

/-- A poster on the posting wait list (R165). -/
inductive Poster where
  | slot (i : SlotId)
  | queue (q : QueueId)
  deriving DecidableEq, Repr

/-- The completion FIFO (front first), the posting wait list (front first), and the view (`none` is kind NONE). -/
structure Completion where
  fifo : List Record
  waiters : List Poster
  view : Option Record
  deriving DecidableEq, Repr

/-- The sticky causes, the mask (bits HALT, NOTE, STRAY, CPL from bit 0, R181) and the threshold. -/
structure Interrupts where
  halt : Bool
  note : Bool
  stray : Bool
  mask : BitVec 4
  threshold : Nat
  deriving DecidableEq, Repr

end Sys2Proof.Machine
end

