-- ==== Sys2Proof/Machine/State.lean ====
section
/-!
DEFINITION. The state of the 4208 as plain data, block by block (00_scope, section 1.4), the reasons a step could stop,
and the state after reset.
-/

namespace Sys2Proof.Machine

/-- Why a step stops with a fault: never. Every command of the 4208 has an effect or is ignored, and what the manual
calls a fault is an effect on the state (INVENTORY, Faults); the type has no constructor, which is safe: no claim can
rest on a stop. -/
inductive Fault where
  deriving DecidableEq, Repr

/-- Why a step is refused. -/
inductive Refusal where
  /-- Raised by an arm of `exec` whose command has no meaning yet (none has). Safe: the machine stops. -/
  | notModelled (mnemonic : String)
  deriving DecidableEq, Repr

/-- The machine. Each field is the state of one block; `pending` is the model's own queue of commands. -/
structure State where
  /-- The commands waiting, first in, first out. -/
  pending : List Instr
  /-- The reset input pin is asserted (R148); the port reset output equals it. -/
  resetPin : Bool
  host : HostPort
  queues : Vector Queue 4
  /-- The slot arbiter's round-robin pointer (R31). -/
  slotPointer : QueueId
  tags : Vector Tag 32
  /-- The job slots; `none` is FREE (R60). -/
  slots : Vector (Option Job) 8
  interlock : Interlock
  segments : Vector SegEntry 512
  ext : ExtPort
  /-- The round-robin pointers of the bank port arbiters (R149). -/
  bankPointers : Vector SlotId 8
  memory : Memory
  completion : Completion
  interrupts : Interrupts
  deriving DecidableEq, Repr

/-- A queue after either reset (R44). -/
def Queue.reset : Queue :=
  { state := .stopped, commands := [], nextSeq := 0, jobs := 0, halt := none,
    pushResult := .none, controlResult := .none }

/-- The host port after either reset, but for the data the bus returned last (R21, R160). -/
def HostPort.reset : HostPort :=
  { staging := Vector.replicate 4 (Vector.replicate 4 0), apBank := 0, apWord := 0, writeLatch := 0, readLatch := 0,
    parity := false, held := none, readData := 0 }

/-- All-zero contents of a segment table entry (R116). -/
def SegEntry.zero : SegEntry := { valid := false, stop := false, lengthMinusOne := 0, base := 0 }

/-- The machine right after a pin reset that follows power-up has ended: R44 and R21 (queues and staging), R31 (slot
arbiter), R51 (tags), R88 (slots), R114 (interlock), R116 (segment table), R148 (external port), R160 (bank ports and
aperture), R175 (completion and interrupts); no bank word has been written (R9). -/
def State.reset : State :=
  { pending := []
    resetPin := false
    host := HostPort.reset
    queues := Vector.replicate 4 Queue.reset
    slotPointer := 3
    tags := Vector.replicate 32 { count := 0, poison := false }
    slots := Vector.replicate 8 none
    interlock := { table := [], waiters := [] }
    segments := Vector.replicate 512 SegEntry.zero
    ext := { ids := Vector.replicate 16 .free, pointer := 7, xsize := .mib16, xtimeout := 64 }
    bankPointers := Vector.replicate 8 7
    memory := []
    completion := { fifo := [], waiters := [], view := none }
    interrupts := { halt := false, note := false, stray := false, mask := 0xF, threshold := 1 } }

end Sys2Proof.Machine
end

