-- ==== Sys2Proof/Machine/Banks.lean ====
section
/-!
DEFINITION. The on-chip banks: the word store in its canonical form, bursts, and the check of a read (R2 to R9).
-/

namespace Sys2Proof.Machine

/-- The key of a bank word: bank × 8192 + word address (R2). -/
def wordKey (b : BankId) (w : BankWord) : Nat := b.val * 8192 + w.val

/-- What an unlisted key reads as: the word as power-up left it, a free value (R9, log entry 3). -/
def powerUpWord (k : Nat) : StoredWord := { data := Config.powerUpData k, agrees := Config.powerUpAgrees k }

/-- The stored word listed at a key. -/
def Memory.lookup : Memory → Nat → Option StoredWord
  | [], _ => none
  | (j, v) :: m, k => if j = k then some v else lookup m k

/-- The stored word at a key, listed or not. -/
def Memory.read (m : Memory) (k : Nat) : StoredWord := (m.lookup k).getD (powerUpWord k)

/-- Store a word at a key, keeping keys strictly rising. -/
def Memory.write : Memory → Nat → StoredWord → Memory
  | [], k, v => [(k, v)]
  | (j, w) :: m, k, v =>
    if k < j then (k, v) :: (j, w) :: m
    else if k = j then (k, v) :: m
    else (j, w) :: write m k v

/-- The canonical form: keys strictly rising and within the 65536 words of the banks. A listed word is one written
since power-up, which no unlisted word is, so equal contents are equal lists. -/
abbrev Memory.wf (m : Memory) : Prop := m.Pairwise (fun x y => x.1 < y.1) ∧ ∀ x ∈ m, x.1 < 65536

/-- Word n of bank burst k (R2): word address 8k + n. -/
def burstWord (k : BankBurst) (n : Fin 8) : BankWord := ⟨8 * k.val + n.val, by omega⟩

/-- Read one bank word with its check result (R7). -/
def Memory.readWord (m : Memory) (b : BankId) (w : BankWord) : StoredWord := m.read (wordKey b w)

/-- Write one bank word with fresh check bits (R6). -/
def Memory.writeWord (m : Memory) (b : BankId) (w : BankWord) (x : Word) : Memory :=
  m.write (wordKey b w) { data := x, agrees := true }

/-- Eight words from a function of the word number. -/
def mkBurst (f : Fin 8 → Word) : BurstData := #v[f 0, f 1, f 2, f 3, f 4, f 5, f 6, f 7]

/-- The data of the eight words of a bank burst (R8). -/
def Memory.burstData (m : Memory) (b : BankId) (k : BankBurst) : BurstData :=
  mkBurst fun n => (m.readWord b (burstWord k n)).data

/-- The lowest-numbered word of a bank burst that has a parity error (R7). -/
def Memory.firstParityError (m : Memory) (b : BankId) (k : BankBurst) : Option (Fin 8) :=
  (List.finRange 8).find? fun n => !(m.readWord b (burstWord k n)).agrees

/-- Store the eight words of a burst, each with fresh check bits (R6, R8). -/
def Memory.writeBurst (m : Memory) (b : BankId) (k : BankBurst) (d : BurstData) : Memory :=
  (List.finRange 8).foldl (fun m n => m.writeWord b (burstWord k n) d[n]) m

/-- What comes back to a burst for one of its reads: eight words, or the fault it fails with (R81). -/
inductive ReadOutcome where
  | words (d : BurstData)
  | failed (f : PlacedFault)
  deriving DecidableEq, Repr

/-- The outcome of a burst read taken at a bank port: BANK_PARITY at the lowest word in error, or the words
(R7, R15). -/
def Memory.burstOutcome (m : Memory) (b : BankId) (k : BankBurst) : ReadOutcome :=
  match m.firstParityError b k with
  | some n => .failed { fault := .bankParity, place := .bank b (burstWord k n) }
  | none => .words (m.burstData b k)

/-- The bank burst that burst index i reaches from address a: (a + i) mod 1024 (R3). -/
def bankBurstAt (a : BitVec 22) (i : Nat) : BankBurst := Fin.ofNat 1024 (a.toNat + i)

/-- The banks a mask selects, in ascending bank number (R2, R4). -/
def maskBanks (mask : BitVec 8) : List BankId := (List.finRange 8).filter fun b => mask.getLsbD b.val

end Sys2Proof.Machine
end

