-- ==== Sys2Proof/Machine/Reduction.lean ====
section
/-!
DEFINITION. The reduction unit (05_reduction_arithmetic.md): the ten operators at every width, clamps, the fold and its
order, and the FILL pattern.
-/

namespace Sys2Proof.Machine

/-- The width in bits (R1). -/
def Width.bits : Width → Nat
  | .w8 => 8
  | .w16 => 16
  | .w32 => 32
  | .w64 => 64

/-- Element j of a word at width w: bits j·w to j·w + w − 1 (R1). -/
def element (w : Nat) (j : Nat) (x : Word) : BitVec w := x.extractLsb' (j * w) w

/-- A signed sum held in the range of width w, and whether it was held (R91). -/
def holdSigned (w : Nat) (s : Int) : BitVec w × Bool :=
  if s > 2 ^ (w - 1) - 1 then (BitVec.ofInt w (2 ^ (w - 1) - 1), true)
  else if s < -(2 ^ (w - 1)) then (BitVec.ofInt w (-(2 ^ (w - 1))), true)
  else (BitVec.ofInt w s, false)

/-- An unsigned sum held at the top of width w, and whether it was held (R92). -/
def holdUnsigned (w : Nat) (s : Nat) : BitVec w × Bool :=
  if s > 2 ^ w - 1 then (BitVec.ofNat w (2 ^ w - 1), true) else (BitVec.ofNat w s, false)

/-- One application: the result element and whether it clamped (R90 to R95). -/
def apply {w : Nat} (op : Op) (a b : BitVec w) : BitVec w × Bool :=
  match op with
  | .add => (BitVec.ofNat w (a.toNat + b.toNat), false)
  | .adds => holdSigned w (a.toInt + b.toInt)
  | .addu => holdUnsigned w (a.toNat + b.toNat)
  | .maxs => (if a.toInt ≤ b.toInt then b else a, false)
  | .mins => (if a.toInt ≤ b.toInt then a else b, false)
  | .maxu => (if a.toNat ≤ b.toNat then b else a, false)
  | .minu => (if a.toNat ≤ b.toNat then a else b, false)
  | .and => (a &&& b, false)
  | .or => (a ||| b, false)
  | .xor => (a ^^^ b, false)

/-- The element numbers of a word at a width: 0 to 64/w − 1 (R1). -/
def elementNumbers (width : Width) : List Nat := List.range (64 / width.bits)

/-- The result word: element j is the application of the operator to the elements j (R89). -/
def applyWord (op : Op) (width : Width) (x y : Word) : Word :=
  (elementNumbers width).foldl
    (fun acc j =>
      acc ||| ((apply op (element width.bits j x) (element width.bits j y)).1.setWidth 64 <<< (j * width.bits))) 0

/-- How many applications of a word pair clamp (R95). -/
def clampsWord (op : Op) (width : Width) (x y : Word) : Nat :=
  (elementNumbers width).countP
    fun j => (apply op (element width.bits j x) (element width.bits j y)).2

/-- One step of a fold over whole bursts (R89). -/
def applyBurst (op : Op) (width : Width) (x y : BurstData) : BurstData :=
  mkBurst fun n => applyWord op width x[n] y[n]

/-- The clamps of one step of a fold (R95). -/
def clampsBurst (op : Op) (width : Width) (x y : BurstData) : Nat :=
  ((List.finRange 8).map fun n => clampsWord op width x[n] y[n]).sum

/-- The fold of a running value with further operands, each the second operand of its step, and the clamps of all the
steps (R95, R99). -/
def foldBursts (op : Op) (width : Width) : BurstData → List BurstData → BurstData × Nat
  | x, [] => (x, 0)
  | x, y :: ys =>
    let r := foldBursts op width (applyBurst op width x y) ys
    (r.1, clampsBurst op width x y + r.2)

/-- A burst of zeros: the value of a fold over no operands, which no job makes (a MERGE has 2 to 8 banks). -/
def zeroBurst : BurstData := mkBurst fun _ => 0

/-- The fold of a list of source bursts, the first the running value (R99). -/
def foldSources (op : Op) (width : Width) : List BurstData → BurstData × Nat
  | [] => (zeroBurst, 0)
  | x :: xs => foldBursts op width x xs

/-- The final application of a read-modify-write: the old destination first, the fold second (R98, R100). -/
def foldOldDestination (op : Op) (width : Width) (old : BurstData) (fold : BurstData × Nat) : BurstData × Nat :=
  (applyBurst op width old fold.1, fold.2 + clampsBurst op width old fold.1)

/-- The eight words of a FILL burst: the pattern in both halves of every word (R102). -/
def fillWords (pattern : Half) : BurstData := mkBurst fun _ => pattern ++ pattern

end Sys2Proof.Machine
end

