-- ==== Sys2Proof/Machine/Operands.lean ====
section
/-!
DEFINITION. The operand forms: the fields of a command's four parts (R185), the four decode checks (R26 to R28), the
sizes of external memory (R10), the form of a segment table entry (R186), and serialization (R79).
-/

namespace Sys2Proof.Machine

/-! ## Sizes of external memory (R10) -/

/-- The number of segments G at a size (R10). -/
def XSize.segments : XSize → Nat
  | .mib16 => 65536
  | .mib32 => 131072
  | .mib64 => 262144
  | .mib128 => 524288
  | .mib256 => 1048576

/-- The number of bursts S = 4G at a size (R10). -/
def XSize.bursts (x : XSize) : Nat := 4 * x.segments

/-- The size that a code of XCFG names, if it names one (R181). -/
def XSize.ofCode (code : BitVec 3) : Option XSize :=
  match code.toNat with
  | 0 => some .mib16
  | 1 => some .mib32
  | 2 => some .mib64
  | 3 => some .mib128
  | 4 => some .mib256
  | _ => none

/-- The code of a size (R181). -/
def XSize.code : XSize → Nat
  | .mib16 => 0
  | .mib32 => 1
  | .mib64 => 2
  | .mib128 => 3
  | .mib256 => 4

/-! ## Fields of part 0 (R185) -/

/-- The kind code, bits 2:0 of part 0. -/
def Parts.kind (p : Parts) : BitVec 3 := p[0].extractLsb' 0 3

/-- The mode code, bits 5:3. -/
def Parts.mode (p : Parts) : BitVec 3 := p[0].extractLsb' 3 3

/-- The operator, bits 9:6, if the code names one. -/
def Parts.op (p : Parts) : Option Op :=
  match (p[0].extractLsb' 6 4).toNat with
  | 0 => some .add
  | 1 => some .adds
  | 2 => some .addu
  | 3 => some .maxs
  | 4 => some .mins
  | 5 => some .maxu
  | 6 => some .minu
  | 7 => some .and
  | 8 => some .or
  | 9 => some .xor
  | _ => none

/-- The width, bits 11:10. -/
def Parts.width (p : Parts) : Width :=
  match (p[0].extractLsb' 10 2).toNat with
  | 0 => .w8
  | 1 => .w16
  | 2 => .w32
  | _ => .w64

/-- The priority, bits 13:12. -/
def Parts.priority (p : Parts) : Fin 4 := Fin.ofNat 4 (p[0].extractLsb' 12 2).toNat

/-- The report policy, bits 15:14, if the code names one. -/
def Parts.report (p : Parts) : Option Report :=
  match (p[0].extractLsb' 14 2).toNat with
  | 0 => some .always
  | 1 => some .onFault
  | 2 => some .never
  | _ => none

/-- Bit 16: tagged, fail-on-poison of a WAIT, or the interrupt flag of a NOTE. -/
def Parts.flag (p : Parts) : Bool := p[0].getLsbD 16

/-- The tag carried: bits 21:17 when tagged (R45). -/
def Parts.tag (p : Parts) : Option TagId :=
  if p.flag then some (Fin.ofNat 32 (p[0].extractLsb' 17 5).toNat) else none

/-- The accumulate flag, bit 22. -/
def Parts.accumulate (p : Parts) : Bool := p[0].getLsbD 22

/-! ## Sides and the other parts (R185) -/

/-- The address of a side, bits 21:0. -/
def sideAddress (part : Half) : BitVec 22 := part.extractLsb' 0 22

/-- The banks of a side's mask, bits 29:22. -/
def sideBanks (part : Half) : List BankId := maskBanks (part.extractLsb' 22 8)

/-- The space code of a side, bits 31:30: 0 BANK, 1 EXT, 2 EXTSEG. -/
def sideSpace (part : Half) : BitVec 2 := part.extractLsb' 30 2

/-- A side that is one bank, EXT or EXTSEG; none for a bank mask that does not have exactly one bit, and for space
code 3 (R27). -/
def oneBankSide (part : Half) : Option Side :=
  match (sideSpace part).toNat with
  | 0 =>
    match sideBanks part with
    | [b] => some (.bank b (sideAddress part))
    | _ => none
  | 1 => some (.ext (sideAddress part))
  | 2 => some (.extseg (sideAddress part))
  | _ => none

/-- The banks of a BANK side that may select several, if it selects at least `least` (R27). -/
def manyBankSide (least : Nat) (part : Half) : Option (List BankId) :=
  if sideSpace part = 0 ∧ least ≤ (sideBanks part).length then some (sideBanks part) else none

/-- A side in external memory found through the segment table. -/
def Side.isExtseg : Side → Bool
  | .extseg _ => true
  | _ => false

/-- The count field of a MOVE, bits 13:0 of part 3. -/
def Parts.moveCount (p : Parts) : Nat := (p[3].extractLsb' 0 14).toNat

/-- The entry count field of a TABLOAD, bits 25:16 of part 2. -/
def Parts.entryCount (p : Parts) : Nat := (p[2].extractLsb' 16 10).toNat

/-- The table start index of a TABLOAD, bits 8:0 of part 2. -/
def Parts.tableStart (p : Parts) : BitVec 9 := p[2].extractLsb' 0 9

/-- The tag mask of a WAIT, part 1. -/
def Parts.waitMask (p : Parts) : Half := p[1]

/-- The mark of a NOTE, bits 15:0 of part 1. -/
def Parts.mark (p : Parts) : BitVec 16 := p[1].extractLsb' 0 16

/-! ## Form (R27, R28) -/

/-- The two sides of a mode with one-bank sides, if both are legal and at most one is EXTSEG (R27). -/
def twoSides (p : Parts) : Option (Side × Side) :=
  match oneBankSide p[1], oneBankSide p[2] with
  | some src, some dst => if src.isExtseg && dst.isExtseg then none else some (src, dst)
  | _, _ => none

/-- What a MOVE does, if its mode and sides and, for ACCUM and MERGE, its operator are legal (R27). -/
def Parts.moveWork (p : Parts) : Option Work :=
  match p.mode.toNat with
  | 0 =>
    match twoSides p with
    | some (src, dst) => some (.copy src dst)
    | none => none
  | 1 =>
    match oneBankSide p[2] with
    | some dst => some (.fill p[1] dst)
    | none => none
  | 2 =>
    match p.op, twoSides p with
    | some op, some (src, dst) => some (.accum op p.width src dst)
    | _, _ => none
  | 3 =>
    match p.op, manyBankSide 2 p[1], oneBankSide p[2] with
    | some op, some banks, some dst => some (.merge op p.width p.accumulate banks (sideAddress p[1]) dst)
    | _, _, _ => none
  | 4 =>
    match oneBankSide p[1], manyBankSide 1 p[2] with
    | some src, some banks => some (.spread src banks (sideAddress p[2]))
    | _, _ => none
  | _ => none

/-- A MOVE whose form is legal (R27); the count is as written. -/
def Parts.moveForm (p : Parts) : Option JobCommand :=
  match p.moveWork, p.report with
  | some work, some report =>
    some { parts := p, work := work, priority := p.priority, report := report, tag := p.tag, count := p.moveCount }
  | _, _ => none

/-- A TABLOAD whose form is legal (R28); its count is the entry count ÷ 16 (R61). -/
def Parts.tabloadForm (p : Parts) : Option JobCommand :=
  match sideBanks p[1], p.report with
  | [b], some report =>
    if p.tableStart.toNat % 16 = 0 ∧ p.entryCount % 16 = 0 ∧ 16 ≤ p.entryCount ∧ p.entryCount ≤ 512 then
      some { parts := p, work := .tabload b (sideAddress p[1]) p.tableStart, priority := p.priority, report := report,
             tag := p.tag, count := p.entryCount / 16 }
    else none
  | _, _ => none

/-- The job a command describes, whatever its length and range: what a slot grant reads from a head decoded
before (R31). -/
def Parts.job (p : Parts) : Option JobCommand :=
  match p.kind.toNat with
  | 1 => p.moveForm
  | 2 => p.tabloadForm
  | _ => none

/-! ## Decode (R26) -/

/-- The burst address of a direct EXT side. -/
def Side.directAddress : Side → List (BitVec 22)
  | .ext a => [a]
  | _ => []

/-- The direct EXT sides of a job: their burst addresses (R11). -/
def Work.extSides : Work → List (BitVec 22)
  | .copy src dst => src.directAddress ++ dst.directAddress
  | .fill _ dst => dst.directAddress
  | .accum _ _ src dst => src.directAddress ++ dst.directAddress
  | .merge _ _ _ _ _ dst => dst.directAddress
  | .spread src _ _ => src.directAddress
  | .tabload _ _ _ => []

/-- Check 4: every direct EXT side has address plus count not more than S (R11, R26). -/
def JobCommand.inRange (x : XSize) (j : JobCommand) : Bool :=
  (j.work.extSides).all fun a => a.toNat + j.count ≤ x.bursts

/-- The four checks in their order, and the command they pass (R26). -/
def Parts.decode (x : XSize) (p : Parts) : Except HaltCode Command :=
  match p.kind.toNat with
  | 1 =>
    match p.moveForm with
    | none => .error .badForm
    | some j =>
      if j.count = 0 ∨ 8192 < j.count then .error .badLength
      else if j.inRange x then .ok (.job j)
      else .error (.job .extRange)
  | 2 =>
    match p.tabloadForm with
    | none => .error .badForm
    | some j => .ok (.job j)
  | 3 => .ok (.wait p.waitMask p.flag)
  | 4 => .ok (.note p.mark p.flag)
  | _ => .error .badKind

/-! ## The segment table entry (R186) -/

/-- The entry a 32-bit value gives (R186): bits that belong to no field are not stored (R115). -/
def SegEntry.ofHalf (v : Half) : SegEntry :=
  { valid := v.getLsbD 31, stop := v.getLsbD 30, lengthMinusOne := v.extractLsb' 20 6, base := v.extractLsb' 0 20 }

/-- The 32-bit value an entry shows (R186). -/
def SegEntry.toHalf (e : SegEntry) : Half :=
  BitVec.ofBool e.valid ++ BitVec.ofBool e.stop ++ (0#4) ++ e.lengthMinusOne ++ e.base

/-- The run length of an entry, 1 to 64 segments (R115). -/
def SegEntry.runLength (e : SegEntry) : Nat := e.lengthMinusOne.toNat + 1

/-! ## Serialization (R5, R14, R79) -/

/-- Two ranges of one bank overlap, each a start and a count of at least 1: one of the starts lies in the other range,
with the wrap (R5). -/
def bankRangesOverlap (a n d m : Nat) : Bool :=
  (d + 1024 - a % 1024) % 1024 < n || (a + 1024 - d % 1024) % 1024 < m

/-- Source and destination ranges of one bank overlap with a non-zero offset (R5, R79). -/
def bankSelfOverlap (a d n : Nat) : Bool :=
  bankRangesOverlap a n d n && (d + 1024 - a % 1024) % 1024 != 0

/-- Direct EXT ranges overlap with a non-zero offset (R14, R79). -/
def extSelfOverlap (a d n : Nat) : Bool := a < d + n && d < a + n && a != d

/-- The two sides overlap with a non-zero offset in one of the ways of R79. -/
def sidesSelfOverlap (src dst : Side) (n : Nat) : Bool :=
  match src, dst with
  | .bank b a, .bank c d => b == c && bankSelfOverlap a.toNat d.toNat n
  | .ext a, .ext d => extSelfOverlap a.toNat d.toNat n
  | _, _ => false

/-- The serialized field, decided at slot entry from the command's fields (R79). Each selected bank of a side that
selects several is a range of its own. -/
def JobCommand.serialized (j : JobCommand) : Bool :=
  match j.work with
  | .copy src dst => sidesSelfOverlap src dst j.count
  | .accum _ _ src dst => sidesSelfOverlap src dst j.count
  | .merge _ _ _ banks a dst => banks.any fun b => sidesSelfOverlap (.bank b a) dst j.count
  | .spread src banks a => banks.any fun b => sidesSelfOverlap src (.bank b a) j.count
  | .fill _ _ => false
  | .tabload _ _ _ => false

/-! ## What a job's bursts are (the table of section 4.5) -/

/-- The job's bursts are read-modify-writes: ACCUM, and MERGE with accumulate set (R105). -/
def Work.readsOldDestination : Work → Bool
  | .accum _ _ _ _ => true
  | .merge _ _ accumulate _ _ _ => accumulate
  | _ => false

/-- The kind of the job in a record (R161). -/
def Work.kind : Work → JobKind
  | .tabload _ _ _ => .tabload
  | _ => .move

/-- The start index of an EXTSEG side, taken modulo 512 (R13). -/
def Side.walkStart : Side → Option SegIndex
  | .extseg m => some (Fin.ofNat 512 m.toNat)
  | _ => none

/-- The start index of the side that is EXTSEG, if one is. -/
def Work.walkStart : Work → Option SegIndex
  | .copy src dst => src.walkStart <|> dst.walkStart
  | .fill _ dst => dst.walkStart
  | .accum _ _ src dst => src.walkStart <|> dst.walkStart
  | .merge _ _ _ _ _ dst => dst.walkStart
  | .spread src _ _ => src.walkStart
  | .tabload _ _ _ => none

end Sys2Proof.Machine
end

