-- ==== Sys2Proof/Machine/Walk.lean ====
section
/-!
DEFINITION. The segment walk (R121 to R127) and the resolution of a side's address at burst issue (R67).
-/

namespace Sys2Proof.Machine

/-- The cursor at slot entry (R121). -/
def Cursor.start (m : SegIndex) : Cursor :=
  { index := m, stopHeld := false, segment := 0, position := 0, left := 0 }

/-- The external burst the next burst of the side will use: 4 × segment + position (R121). -/
def Cursor.burst (c : Cursor) : Nat := 4 * c.segment + c.position

/-- The cursor with the run of an entry loaded (R122, step 2). -/
def Cursor.load (c : Cursor) (e : SegEntry) : Cursor :=
  { c with stopHeld := e.stop, segment := e.base.toNat, position := 0, left := e.runLength }

/-- The cursor advanced by one burst; a run used up moves the index on, unless stop is held (R122 step 4, R124). -/
def Cursor.advance (c : Cursor) : Cursor :=
  if c.position < 3 then { c with position := c.position + 1 }
  else if 1 < c.left then { c with position := 0, segment := c.segment + 1, left := c.left - 1 }
  else if c.stopHeld then { c with position := 0, segment := c.segment + 1, left := 0 }
  else { c with position := 0, segment := c.segment + 1, left := 0, index := c.index + 1 }

/-- The walk read of an entry: valid, then range, the fault naming the entry's index (R123). -/
def checkEntry (x : XSize) (n : SegIndex) (e : SegEntry) : Option PlacedFault :=
  if e.valid = false then some { fault := .segInvalid, place := .segtab n }
  else if x.segments < e.base.toNat + e.runLength then some { fault := .segRange, place := .segtab n }
  else none

/-- One burst of the walk: the external burst it takes, or the walk fault, with the cursor it leaves (R122). -/
def walkBurst (x : XSize) (table : Vector SegEntry 512) (c : Cursor) : Except PlacedFault Nat × Cursor :=
  if c.left = 0 then
    if c.stopHeld then (.error { fault := .segOverrun, place := .segtab c.index }, c)
    else
      match checkEntry x c.index table[c.index] with
      | some f => (.error f, c)
      | none => (.ok (c.load table[c.index]).burst, (c.load table[c.index]).advance)
  else (.ok c.burst, c.advance)

/-- The address of a side at burst index i, with the cursor it leaves: bank bursts are not checked, direct EXT bursts
are checked against S, and EXTSEG bursts come from the walk (R67). A job with an EXTSEG side has a cursor from its
entry on; where it has none the walk begins at the side's start index, which is what the entry would have set. -/
def resolveSide (x : XSize) (table : Vector SegEntry 512) (i : Nat) (side : Side) (cursor : Option Cursor) :
    Except PlacedFault Place × Option Cursor :=
  match side with
  | .bank b a => (.ok (.bank b (bankBurstAt a i)), cursor)
  | .ext a =>
    if a.toNat + i < x.bursts then (.ok (.ext (a.toNat + i)), cursor)
    else (.error { fault := .extRange, place := .ext (8 * (a.toNat + i)) }, cursor)
  | .extseg m =>
    let r := walkBurst x table (cursor.getD (Cursor.start (Fin.ofNat 512 m.toNat)))
    (r.1.map Place.ext, some r.2)

/-- The bursts of a side that selects several banks: the same burst in each, in ascending bank number (R4). -/
def manyBankPlaces (banks : List BankId) (a : BitVec 22) (i : Nat) : List Place :=
  banks.map fun b => .bank b (bankBurstAt a i)

/-- The resolved source addresses of burst index i (R67, R69). -/
def resolveSources (x : XSize) (table : Vector SegEntry 512) (i : Nat) (work : Work) (cursor : Option Cursor) :
    Except PlacedFault (List Place) × Option Cursor :=
  match work with
  | .copy src _ | .accum _ _ src _ | .spread src _ _ =>
    let r := resolveSide x table i src cursor
    (r.1.map fun p => [p], r.2)
  | .merge _ _ _ banks a _ => (.ok (manyBankPlaces banks a i), cursor)
  | .tabload b a _ => (.ok [.bank b (bankBurstAt a i)], cursor)
  | .fill _ _ => (.ok [], cursor)

/-- The resolved destination addresses of burst index i (R67, R69). -/
def resolveDests (x : XSize) (table : Vector SegEntry 512) (i : Nat) (work : Work) (cursor : Option Cursor) :
    Except PlacedFault (List Place) × Option Cursor :=
  match work with
  | .copy _ dst | .accum _ _ _ dst | .merge _ _ _ _ _ dst | .fill _ dst =>
    let r := resolveSide x table i dst cursor
    (r.1.map fun p => [p], r.2)
  | .spread _ banks a => (.ok (manyBankPlaces banks a i), cursor)
  | .tabload _ _ _ => (.ok [], cursor)

/-- Both sides, the source first; a failing source is the fault, and the destination is then not resolved
(R67, R68, R122). -/
def resolveBurst (x : XSize) (table : Vector SegEntry 512) (i : Nat) (work : Work) (cursor : Option Cursor) :
    Except PlacedFault (List Place × List Place) × Option Cursor :=
  let r := resolveSources x table i work cursor
  match r.1 with
  | .error f => (.error f, r.2)
  | .ok sources =>
    let t := resolveDests x table i work r.2
    match t.1 with
    | .error f => (.error f, t.2)
    | .ok dests => (.ok (sources, dests), t.2)

/-- The 16 entries of a TABLOAD burst, two from each word, low half at the even index (R118). -/
def loadGroup (table : Vector SegEntry 512) (start : BitVec 9) (i : Nat) (d : BurstData) : Vector SegEntry 512 :=
  (List.finRange 8).foldl
    (fun t k =>
      (t.set ((start.toNat + 16 * i + 2 * k.val) % 512) (SegEntry.ofHalf (d[k].extractLsb' 0 32))).set
        ((start.toNat + 16 * i + 2 * k.val + 1) % 512) (SegEntry.ofHalf (d[k].extractLsb' 32 32)))
    table

end Sys2Proof.Machine
end

