-- ==== Sys2Proof/Machine/Ops.lean ====
section
/-!
DEFINITION. The named operations on the blocks of the 4208: accessors, queues and halts, tags and fences, the
interlock, posting, slot entry, grant, free and finish, and the course of a burst. Every command is written over these.
-/

namespace Sys2Proof.Machine

/-! ## One home for each piece of state -/

def State.queue (s : State) (q : QueueId) : Queue := s.queues[q]

def State.setQueue (s : State) (q : QueueId) (x : Queue) : State := { s with queues := s.queues.set q x }

def State.modQueue (s : State) (q : QueueId) (f : Queue → Queue) : State := s.setQueue q (f (s.queue q))

def State.tag (s : State) (t : TagId) : Tag := s.tags[t]

def State.setTag (s : State) (t : TagId) (x : Tag) : State := { s with tags := s.tags.set t x }

def State.slot (s : State) (i : SlotId) : Option Job := s.slots[i]

def State.setSlot (s : State) (i : SlotId) (x : Option Job) : State := { s with slots := s.slots.set i x }

/-- Change the job record of a slot, if the slot holds one. -/
def State.modJob (s : State) (i : SlotId) (f : Job → Job) : State :=
  match s.slot i with
  | none => s
  | some j => s.setSlot i (some (f j))

def State.reqId (s : State) (d : ReqId) : IdState := s.ext.ids[d]

def State.setReqId (s : State) (d : ReqId) (x : IdState) : State :=
  { s with ext := { s.ext with ids := s.ext.ids.set d x } }

def State.segment (s : State) (m : SegIndex) : SegEntry := s.segments[m]

def State.setSegment (s : State) (m : SegIndex) (x : SegEntry) : State := { s with segments := s.segments.set m x }

def State.bankPointer (s : State) (p : BankId) : SlotId := s.bankPointers[p]

def State.setBankPointer (s : State) (p : BankId) (i : SlotId) : State :=
  { s with bankPointers := s.bankPointers.set p i }

def State.setInterlock (s : State) (x : Interlock) : State := { s with interlock := x }

def State.setCompletion (s : State) (x : Completion) : State := { s with completion := x }

def State.setInterrupts (s : State) (x : Interrupts) : State := { s with interrupts := x }

/-! ## Queues (R16, R23, R24) -/

/-- The head sequence number: the head's, or the next one while the queue is empty (R23). -/
def Queue.headSeq (x : Queue) : BitVec 16 :=
  match x.commands with
  | [] => x.nextSeq
  | c :: _ => c.seq

/-- The head leaves the queue (R16). -/
def Queue.pop (x : Queue) : Queue := { x with commands := x.commands.tail }

/-- Put the queue in a state. -/
def Queue.withState (x : Queue) (st : QueueState) : Queue := { x with state := st }

/-- A queue enters HALTED with a halt reason: it leaves the posting wait list if it is on it (and the slot arbiter's
list by its state), keeps its commands, and the HALT cause is set (R29, R32, R41, R42, R171). -/
def State.haltQueue (s : State) (q : QueueId) (r : HaltReason) : State :=
  ((s.modQueue q fun x => { x with state := .halted, halt := some r }).setCompletion
      { s.completion with waiters := s.completion.waiters.filter (· ≠ .queue q) }).setInterrupts
    { s.interrupts with halt := true }

/-- The first fault of a job, told to the queue that issued it (R41). -/
def State.reportJobFault (s : State) (q : QueueId) (f : JobFault) (seq : BitVec 16) : State :=
  match (s.queue q).state with
  | .halted | .aborting => s
  | .running | .stopped | .fenced | .stalledSlot | .stalledRoom =>
    s.haltQueue q { code := .job f, origin := .job, seq := seq }

/-! ## Tags and fences (R45 to R56) -/

/-- A WAIT's mask names tag t (R20). -/
def maskNames (mask : Half) (t : TagId) : Bool := mask.getLsbD t.val

/-- Every tag the mask names has a count of 0 (R52). -/
def State.fenceSatisfied (s : State) (mask : Half) : Bool :=
  (List.finRange 32).all fun t => !maskNames mask t || (s.tag t).count == 0

/-- Some tag the mask names is poisoned (R55). -/
def State.fencePoisoned (s : State) (mask : Half) : Bool :=
  (List.finRange 32).any fun t => maskNames mask t && (s.tag t).poison

/-- The evaluation of the WAIT at the head of a queue, with its three outcomes (R32, R54, R55). -/
def State.evaluateFence (s : State) (q : QueueId) (c : HeldCommand) : State :=
  if s.fenceSatisfied c.parts.waitMask then
    if c.parts.flag && s.fencePoisoned c.parts.waitMask then
      s.haltQueue q { code := .fencePoisoned, origin := .fence, seq := c.seq }
    else s.modQueue q fun x => x.pop.withState .running
  else s.modQueue q fun x => x.withState .fenced

/-- What a drain of tag t does to one queue: a FENCED queue whose WAIT names t evaluates it again (R54). -/
def State.drainQueue (t : TagId) (s : State) (q : QueueId) : State :=
  match (s.queue q).state, (s.queue q).commands with
  | .fenced, c :: _ => if maskNames c.parts.waitMask t then s.evaluateFence q c else s
  | _, _ => s

/-- A drain of tag t: each FENCED queue for itself (R54). -/
def State.drain (s : State) (t : TagId) : State := (List.finRange 4).foldl (State.drainQueue t) s

/-- A job carrying a tag leaves its slot: the count falls, a bad ending poisons, and a count gone from 1 to 0 is a
drain, evaluated after the poison (R47, R48). -/
def State.releaseTag (s : State) (t : TagId) (bad : Bool) : State :=
  let u := s.setTag t { count := (s.tag t).count - 1, poison := (s.tag t).poison || bad }
  if (s.tag t).count = 1 then u.drain t else u

/-! ## Slot entry and grant (R30, R31, R62) -/

/-- The job record at slot entry (R61, R62). -/
def Job.enter (q : QueueId) (seq : BitVec 16) (c : JobCommand) : Job :=
  { queue := q, seq := seq, command := c, serialized := c.serialized, state := .active, next := 0, done := 0,
    saturation := 0, status := none, place := none, cursor := c.work.walkStart.map Cursor.start, bursts := [] }

/-- A queue's head enters a slot as a job: the head leaves, the queue's count of jobs and the tag's count rise, and
the queue is RUNNING (R30, R31, R46, R62). -/
def State.enterSlot (s : State) (i : SlotId) (q : QueueId) (seq : BitVec 16) (c : JobCommand) : State :=
  let u := (s.setSlot i (some (Job.enter q seq c))).modQueue q
    fun x => { x.pop.withState .running with jobs := x.jobs + 1 }
  match c.tag with
  | none => u
  | some t => u.setTag t { s.tag t with count := (s.tag t).count + 1 }

/-- The lowest-numbered FREE slot (R30). -/
def State.freeSlotIndex (s : State) : Option SlotId := (List.finRange 8).find? fun i => (s.slot i).isNone

/-- A queue on the slot arbiter's list: STALLED(SLOT), with the job at its head (R31). -/
def State.slotWaiter (s : State) (q : QueueId) : Option (QueueId × BitVec 16 × JobCommand) :=
  match (s.queue q).state, (s.queue q).commands with
  | .stalledSlot, c :: _ =>
    match c.parts.job with
    | some j => some (q, c.seq, j)
    | none => none
  | _, _ => none

/-- The queues in the cyclic order that begins just after a queue (R31). -/
def queuesAfter (q : QueueId) : List QueueId := [q + 1, q + 2, q + 3, q]

/-- The slot arbiter grants a freed slot to the first waiting queue after its pointer, if any waits (R31). -/
def State.grantSlot (s : State) (i : SlotId) : State :=
  match (queuesAfter s.slotPointer).findSome? s.slotWaiter with
  | none => s
  | some (q, seq, c) => { s.enterSlot i q seq c with slotPointer := q }

/-! ## Posting, free and finish (R84 to R86, R164) -/

/-- A poster may post: fewer than 64 records, and no one waits (R164). -/
def State.hasRoom (s : State) : Bool :=
  s.completion.fifo.length < Config.fifoDepth && s.completion.waiters.isEmpty

/-- A record is appended at the back of the FIFO (R164). -/
def State.post (s : State) (r : Record) : State :=
  s.setCompletion { s.completion with fifo := s.completion.fifo ++ [r] }

/-- A poster joins the end of the posting wait list (R164). -/
def State.joinWaiters (s : State) (p : Poster) : State :=
  s.setCompletion { s.completion with waiters := s.completion.waiters ++ [p] }

/-- A NOTE at the head of a queue posts: its record is built and appended, its interrupt flag sets the NOTE cause, it
leaves the queue, and the queue is RUNNING (R33, R164, R166, R171). -/
def State.postNote (s : State) (q : QueueId) (c : HeldCommand) : State :=
  let u := (s.post (.note q c.seq c.parts.mark)).modQueue q fun x => x.pop.withState .running
  u.setInterrupts { u.interrupts with note := u.interrupts.note || c.parts.flag }

/-- The record of a job, from its job record (R85). -/
def Job.record (j : Job) : Record :=
  .job j.command.work.kind (j.status.getD .ok) j.queue j.seq j.command.tag j.done j.saturation j.place

/-- The queue that issued a freed job is told: its count of jobs falls, and an ABORTING queue with none left is
STOPPED (R40). -/
def Queue.jobFreed (x : Queue) : Queue :=
  let n := x.jobs - 1
  if x.state = .aborting ∧ n = 0 then { x with jobs := n, state := .stopped } else { x with jobs := n }

/-- Steps 2 to 5 of a free: the slot is FREE, the tag falls, the queue is told, the slot is granted (R86). -/
def State.freeSlot (s : State) (i : SlotId) : State :=
  match s.slot i with
  | none => s
  | some j =>
    let u := s.setSlot i none
    let v :=
      match j.command.tag with
      | none => u
      | some t => u.releaseTag t (decide (j.status ≠ some Status.ok))
    (v.modQueue j.queue Queue.jobFreed).grantSlot i

/-- The end status settled at the finish (R84). -/
def Job.settledStatus (j : Job) : Status :=
  match j.state, j.status with
  | .ending, some (.fault f) => .fault f
  | .ending, some .cancelled => if j.done = j.command.count then .ok else .cancelled
  | _, _ => .ok

/-- Whether the finish needs a completion record (R84). -/
def needsRecord (r : Report) (st : Status) : Bool :=
  match r, st with
  | .always, _ => true
  | .onFault, .ok => false
  | .onFault, _ => true
  | .never, .fault _ => true
  | .never, _ => false

/-- The finish of a job: the status is settled; without a record the slot frees; with one it posts and frees, or the
slot goes to POSTING and joins the posting wait list (R84, R85, R86). -/
def State.finishJob (s : State) (i : SlotId) (j : Job) : State :=
  let k := { j with status := some j.settledStatus }
  if needsRecord k.command.report j.settledStatus then
    if s.hasRoom then ((s.setSlot i (some k)).post k.record).freeSlot i
    else (s.setSlot i (some { k with state := .posting })).joinWaiters (.slot i)
  else (s.setSlot i (some k)).freeSlot i

/-- A job is over when it is DRAINING or ENDING with no burst in flight (R84). -/
def Job.isOver (j : Job) : Bool := (j.state = .draining || j.state = .ending) && j.bursts.isEmpty

/-- Finish the job of a slot if it is over (R84). -/
def State.finishIfOver (s : State) (i : SlotId) : State :=
  match s.slot i with
  | none => s
  | some j => if j.isOver then s.finishJob i j else s

/-! ## Interlock (R103 to R110) -/

/-- Some entry has the key (R106). -/
def Interlock.held (l : Interlock) (k : Place) : Bool := l.table.any fun e => e.key = k

/-- A request for a key is granted: no entry has it, and the table has room (R106). -/
def Interlock.grants (l : Interlock) (k : Place) : Bool := !l.held k && l.table.length < Config.lockEntries

/-- The entry is the one of this slot and burst (R108). -/
def LockRequest.ownedBy (e : LockRequest) (i : SlotId) (n : Nat) : Bool := e.slot = i && e.burst = n

/-- The burst holds an interlock entry (R69, R103). -/
def State.holdsEntry (s : State) (i : SlotId) (n : Nat) : Bool := s.interlock.table.any fun e => e.ownedBy i n

/-- The read requests a burst places on entering READING: its sources and, for a read-modify-write, the old
destination (R70, R75, R76). -/
def Burst.placedReads (b : Burst) (readsOld : Bool) : List ReadRequest :=
  b.sources.map (fun p => { role := .source, place := p, stage := .waiting }) ++
    if readsOld then b.dests.map (fun p => { role := .oldDestination, place := p, stage := .waiting }) else []

/-- A burst enters READING with all its reads placed at once (R70). -/
def Burst.startReading (b : Burst) (readsOld : Bool) : Burst :=
  { b with state := .reading, reads := b.placedReads readsOld }

/-- Put back a burst context, by its index. -/
def Job.putBurst (j : Job) (b : Burst) : Job :=
  { j with bursts := j.bursts.map fun c => if c.index = b.index then b else c }

/-- The burst context with this index goes from LOCK_WAIT to READING (R69, R108). -/
def Job.startReading (j : Job) (n : Nat) : Job :=
  { j with bursts := j.bursts.map fun c =>
      if c.index = n ∧ c.state = .lockWait then c.startReading j.command.work.readsOldDestination else c }

/-- The wait list's scan reaches one waiter: it is granted if its key is free and the table has room, and enters
READING in this happening (R108). -/
def State.scanWaiter (s : State) (w : LockRequest) : State :=
  if s.interlock.grants w.key then
    (s.setInterlock { table := s.interlock.table ++ [w], waiters := s.interlock.waiters.filter (· ≠ w) }).modJob
      w.slot fun j => j.startReading w.burst
  else s

/-- The scan of the lock wait list from the front, once (R108). -/
def State.scanWaiters (s : State) : State := s.interlock.waiters.foldl State.scanWaiter s

/-- The release at a burst's end: its entry, if it holds one, is removed, and the wait list is scanned (R69, R108). -/
def State.releaseEntry (s : State) (i : SlotId) (n : Nat) : State :=
  if s.holdsEntry i n then
    (s.setInterlock { s.interlock with table := s.interlock.table.filter fun e => !e.ownedBy i n }).scanWaiters
  else s

/-! ## The course of a burst (R64, R65, R69 to R72, R81 to R83) -/

/-- Bursts in flight (R61). -/
def Job.inFlight (j : Job) : Nat := j.bursts.length

/-- The job is ACTIVE or DRAINING: a fault is its first (R64). -/
def Job.isRunning (j : Job) : Bool := j.state = .active || j.state = .draining

def ReadRequest.isWaiting (r : ReadRequest) : Bool := r.stage = .waiting

def ReadRequest.isSent (r : ReadRequest) : Bool := r.stage = .sent

/-- The words of a returned read. -/
def ReadRequest.words? (r : ReadRequest) : Option BurstData :=
  match r.stage with
  | .returned d => some d
  | _ => none

/-- A sent read is outstanding (R65, R81). -/
def Burst.awaitsRead (b : Burst) : Bool := b.reads.any ReadRequest.isSent

/-- Every read has returned (R71). -/
def Burst.allReturned (b : Burst) : Bool := b.reads.all fun r => r.words?.isSome

/-- Every write is done (R72). -/
def Burst.allWritten (b : Burst) : Bool := b.writes.all fun w => w.stage = .done

/-- A burst context leaves its job, and its entry is released (R69, R108). -/
def State.removeBurst (s : State) (i : SlotId) (n : Nat) : State :=
  (s.modJob i fun j => { j with bursts := j.bursts.filter fun b => b.index ≠ n }).releaseEntry i n

/-- A burst ends uncounted: it leaves, releases, and the job finishes if it is over (R69). -/
def State.endBurst (s : State) (i : SlotId) (n : Nat) : State := (s.removeBurst i n).finishIfOver i

/-- A burst ends well: it is counted in bursts done, and ends (R69, R72). -/
def State.endBurstWell (s : State) (i : SlotId) (n : Nat) : State :=
  (s.modJob i fun j => { j with done := j.done + 1 }).endBurst i n

/-- A READING burst withdraws its waiting reads (R65). -/
def Burst.withdraw (b : Burst) : Burst :=
  match b.state with
  | .reading => { b with reads := b.reads.filter fun r => !r.isWaiting }
  | .lockWait | .writing => b

/-- A burst ends in the ENDING happening: READING with no sent read, or failed in its write (R65, R81, R82). -/
def Burst.endsAtEnding (b : Burst) : Bool :=
  match b.state with
  | .reading => !b.awaitsRead
  | .writing => b.failed
  | .lockWait => false

/-- ENDING applied to the bursts of a job: LOCK_WAIT bursts are dropped, without a scan; READING bursts withdraw their
waiting reads; those that then end release in turn, in ascending burst index (contexts stand in issue order);
WRITING bursts continue (R65, R108, R110). -/
def State.applyEnding (s : State) (i : SlotId) (j : Job) : State :=
  let kept := (j.bursts.filter fun b => b.state ≠ .lockWait).map Burst.withdraw
  let u := (s.setSlot i (some { j with state := .ending, bursts := kept })).setInterlock
    { s.interlock with waiters := s.interlock.waiters.filter fun w => w.slot ≠ i }
  (kept.filter Burst.endsAtEnding).foldl (fun t b => t.removeBurst i b.index) u

/-- A job's first fault: status and place are set, the queue is told, ENDING is applied to its bursts, and the job
finishes if none is left in flight (R64). -/
def State.firstFault (s : State) (i : SlotId) (j : Job) (f : PlacedFault) : State :=
  ((s.reportJobFault j.queue f.fault j.seq).applyEnding i
      { j with status := some (.fault f.fault), place := some f.place }).finishIfOver i

/-- The words a burst writes and the clamps of its combine, from its returned reads (R71, R73, R75 to R77). -/
def Burst.combined (b : Burst) (work : Work) : BurstData × Nat :=
  let sources := (b.reads.filter fun r => r.role = .source).filterMap ReadRequest.words?
  let old := ((b.reads.filter fun r => r.role = .oldDestination).filterMap ReadRequest.words?).headD zeroBurst
  match work with
  | .accum op w _ _ => foldOldDestination op w old (sources.headD zeroBurst, 0)
  | .merge op w accumulate _ _ _ =>
    if accumulate then foldOldDestination op w old (foldSources op w sources) else foldSources op w sources
  | .copy _ _ | .spread _ _ _ | .tabload _ _ _ => (sources.headD zeroBurst, 0)
  | .fill pattern _ => (fillWords pattern, 0)

/-- A burst enters WRITING with one write request per destination (R71). -/
def Burst.startWriting (b : Burst) (d : BurstData) : Burst :=
  { b with state := .writing, writes := b.dests.map fun p => { place := p, stage := .waiting, words := d } }

/-- The saturation count with a combine's clamps added, sticking at 65535 (R96). -/
def addSaturation (n clamps : Nat) : Nat := min (n + clamps) Config.saturationLimit

/-- The combine of a burst whose last read has returned (R71). A TABLOAD burst writes its 16 entries and ends well
(R78, R118); every other burst goes to WRITING with its writes placed. -/
def State.combine (s : State) (i : SlotId) (j : Job) (b : Burst) : State :=
  let r := b.combined j.command.work
  match j.command.work with
  | .tabload _ _ start => { s with segments := loadGroup s.segments start b.index r.1 }.endBurstWell i b.index
  | .copy _ _ | .fill _ _ | .accum _ _ _ _ | .merge _ _ _ _ _ _ | .spread _ _ _ =>
    s.setSlot i (some { j.putBurst (b.startWriting r.1) with saturation := addSaturation j.saturation r.2 })

/-- A burst with one of its reads in another stage. -/
def Burst.setRead (b : Burst) (r : ReadRequest) (stage : ReadStage) : Burst :=
  { b with reads := b.reads.map fun x => if x = r then { r with stage := stage } else x }

/-- A burst without one of its reads: the read is no longer outstanding, and what it returned is discarded. -/
def Burst.dropRead (b : Burst) (r : ReadRequest) : Burst := { b with reads := b.reads.filter (· ≠ r) }

/-- A burst in which a read has failed: the read is no longer outstanding, the reads still waiting are withdrawn, and the
burst is marked failed (R81). -/
def Burst.failRead (b : Burst) (r : ReadRequest) : Burst :=
  { b with reads := (b.reads.filter (· ≠ r)).filter (fun x => !x.isWaiting), failed := true }

/-- A burst that makes no combine has lost a read: it stays while a sent read of it is outstanding, and otherwise ends
uncounted (R65, R81). -/
def State.awaitOrEnd (s : State) (i : SlotId) (j : Job) (c : Burst) : State :=
  let u := s.setSlot i (some (j.putBurst c))
  if c.awaitsRead then u else u.endBurst i c.index

/-- A read of a burst in flight returns, or fails (R71, R81). In an ENDING job, or for a burst that has already failed,
what it returns is discarded, and a failure marks the burst and changes no status; the burst ends when none of its sent
reads is left (R65, R81). -/
def State.readReturns (s : State) (i : SlotId) (j : Job) (b : Burst) (r : ReadRequest) (o : ReadOutcome) : State :=
  match o with
  | .words d =>
    if j.isRunning && !b.failed then
      let c := b.setRead r (.returned d)
      if c.allReturned then s.combine i j c else s.setSlot i (some (j.putBurst c))
    else s.awaitOrEnd i j (b.dropRead r)
  | .failed f =>
    if j.isRunning && !b.failed then s.firstFault i (j.putBurst (b.failRead r)) f
    else s.awaitOrEnd i j (b.failRead r)

/-- A burst with one of its writes in another stage. -/
def Burst.setWrite (b : Burst) (w : WriteRequest) (stage : WriteStage) : Burst :=
  { b with writes := b.writes.map fun x => if x = w then { w with stage := stage } else x }

/-- A write of a burst is done; the burst ends well with its last one, whether or not its job is ENDING (R72). -/
def State.writeDone (s : State) (i : SlotId) (j : Job) (b : Burst) (w : WriteRequest) : State :=
  let c := b.setWrite w .done
  let u := s.setSlot i (some (j.putBurst c))
  if c.allWritten then u.endBurstWell i b.index else u

/-- An external write of a burst fails: the burst ends uncounted, and it is the job's first fault or a second failure
(R82). -/
def State.writeFails (s : State) (i : SlotId) (j : Job) (b : Burst) (f : PlacedFault) : State :=
  if j.isRunning then s.firstFault i (j.putBurst { b with failed := true }) f else s.endBurst i b.index

/-- A cancel of one slot's job by an ABORT of queue q: an ACTIVE or DRAINING job of the queue enters ENDING with
CANCELLED, and finishes if nothing is left in flight (R83). -/
def State.cancelJob (q : QueueId) (s : State) (i : SlotId) : State :=
  match s.slot i with
  | none => s
  | some j =>
    if j.queue = q ∧ j.isRunning then (s.applyEnding i { j with status := some .cancelled }).finishIfOver i else s

/-! ## Arbiters (R135, R151) -/

/-- The slots in the cyclic order that begins just after a slot (R135, R151). -/
def slotsAfter (i : SlotId) : List SlotId := [i + 1, i + 2, i + 3, i + 4, i + 5, i + 6, i + 7, i]

/-- The burst of lowest index in a list. -/
def lowestBurst : List Burst → Option Burst
  | [] => none
  | b :: bs =>
    match lowestBurst bs with
    | none => some b
    | some c => if b.index ≤ c.index then some b else some c

/-- The slot has a burst with a request of the wanted kind waiting. -/
def State.contends (s : State) (wants : Burst → Bool) (i : SlotId) : Bool :=
  match s.slot i with
  | none => false
  | some j => j.bursts.any wants

/-- The priority of the job in a slot; a FREE slot counts as 0 and never contends. -/
def State.slotPriority (s : State) (i : SlotId) : Nat :=
  match s.slot i with
  | none => 0
  | some j => j.command.priority.val

/-- The slot contends, and at the highest priority of all that do. -/
def State.contendsAtTop (s : State) (wants : Burst → Bool) (i : SlotId) : Bool :=
  s.contends wants i && (List.finRange 8).all fun k => !s.contends wants k || s.slotPriority k ≤ s.slotPriority i

/-- Priority, then slot round-robin after the pointer, then the lowest burst index (R135, R151). -/
def State.arbitrate (s : State) (wants : Burst → Bool) (pointer : SlotId) : Option (SlotId × Job × Burst) :=
  match (slotsAfter pointer).find? (s.contendsAtTop wants) with
  | none => none
  | some i =>
    match s.slot i with
    | none => none
    | some j =>
      match lowestBurst (j.bursts.filter wants) with
      | none => none
      | some b => some (i, j, b)

end Sys2Proof.Machine
end

