-- ==== Sys2Proof/Machine/Flags.lean ====
section
/-!
DEFINITION. The flags and levels computed from the state: the CPL level, the interrupt line, the tracker's counts and
the standing offer, the request channel, the port reset output, and the waiting requests of the ports.
-/

namespace Sys2Proof.Machine

/-! ## Interrupts (R173, R174) -/

/-- The CPL level: the FIFO holds at least CPLTH records (R173). -/
def State.cplLevel (s : State) : Bool := decide (s.interrupts.threshold ≤ s.completion.fifo.length)

/-- The four causes in their bit positions: HALT, NOTE, STRAY, CPL from bit 0 (R181). -/
def State.causes (s : State) : BitVec 4 :=
  BitVec.ofBool s.cplLevel ++ BitVec.ofBool s.interrupts.stray ++ BitVec.ofBool s.interrupts.note ++
    BitVec.ofBool s.interrupts.halt

/-- The interrupt line: asserted while a cause is true and its mask bit clear, deasserted while the reset pin is
asserted (R174, R175). -/
def State.interruptLine (s : State) : Bool := !s.resetPin && (s.causes &&& ~~~s.interrupts.mask) != 0

/-- The port reset output toward the external controller (R148). -/
def State.portResetOutput (s : State) : Bool := s.resetPin

/-! ## The tracker (R131, R133, R146) -/

/-- The ID is FREE. -/
def IdState.isFree : IdState → Bool
  | .free => true
  | _ => false

/-- The ID is BUSY. -/
def IdState.isBusy : IdState → Bool
  | .busy _ => true
  | _ => false

/-- The ID is QUARANTINED. -/
def IdState.isQuarantined : IdState → Bool
  | .quarantined => true
  | _ => false

/-- The ID carries an offer not yet accepted. -/
def IdState.isOffered : IdState → Bool
  | .busy b => !b.accepted
  | _ => false

/-- The ID of the standing offer, if an offer stands (R131). -/
def State.standingOffer (s : State) : Option ReqId := (List.finRange 16).find? fun d => (s.reqId d).isOffered

/-- The lowest-numbered FREE ID (R135). -/
def State.freeReqId (s : State) : Option ReqId := (List.finRange 16).find? fun d => (s.reqId d).isFree

/-- The number of BUSY IDs (R146). -/
def State.busyCount (s : State) : Nat := (List.finRange 16).countP fun d => (s.reqId d).isBusy

/-- The number of QUARANTINED IDs (R146). -/
def State.quarantinedCount (s : State) : Nat := (List.finRange 16).countP fun d => (s.reqId d).isQuarantined

/-- A request as the request channel shows it (R131); write data only for a WRITE. -/
structure OfferedRequest where
  id : ReqId
  isWrite : Bool
  address : Nat
  writeData : Option BurstData
  deriving DecidableEq, Repr

/-- The burst that owns a BUSY ID, with its job (R133). -/
def State.owner (s : State) (b : BusyId) : Option (Job × Burst) :=
  match s.slot b.slot with
  | none => none
  | some j =>
    match j.bursts.find? fun c => c.index = b.burst with
    | none => none
    | some c => some (j, c)

/-- The write data of the request an ID carries: the words of the owning burst's external write (R131). -/
def State.offeredWords (s : State) (b : BusyId) : Option BurstData :=
  match b.role, s.owner b with
  | .write, some (_, c) => (c.writes.find? fun w => w.place = .ext b.address).map WriteRequest.words
  | _, _ => none

/-- The request channel: the standing offer's fields, or nothing while no offer stands (R131). -/
def State.requestChannel (s : State) : Option OfferedRequest :=
  match s.standingOffer with
  | none => none
  | some d =>
    match s.reqId d with
    | .busy b =>
      some { id := d, isWrite := b.role = .write, address := b.address, writeData := s.offeredWords b }
    | _ => none

/-! ## Waiting requests (R134, R149) -/

/-- The place is in a bank, at this port. -/
def Place.atBank (p : BankId) : Place → Bool
  | .bank b _ => b = p
  | .ext _ => false

/-- The place is external. -/
def Place.isExt : Place → Bool
  | .bank _ _ => false
  | .ext _ => true

/-- A read waits at a bank port (R150). -/
def ReadRequest.waitsAtBank (p : BankId) (r : ReadRequest) : Bool := r.isWaiting && r.place.atBank p

/-- A write waits at a bank port (R150). -/
def WriteRequest.waitsAtBank (p : BankId) (w : WriteRequest) : Bool := w.stage = .waiting && w.place.atBank p

/-- A read waits at the external port (R134). -/
def ReadRequest.waitsAtExt (r : ReadRequest) : Bool := r.isWaiting && r.place.isExt

/-- A write waits at the external port (R134). -/
def WriteRequest.waitsAtExt (w : WriteRequest) : Bool := w.stage = .waiting && w.place.isExt

/-- The burst has a request waiting at a bank port (R149). -/
def Burst.waitsAtBank (p : BankId) (b : Burst) : Bool :=
  b.reads.any (ReadRequest.waitsAtBank p) || b.writes.any (WriteRequest.waitsAtBank p)

/-- The burst has a request waiting at the external port (R134). -/
def Burst.waitsAtExt (b : Burst) : Bool := b.reads.any ReadRequest.waitsAtExt || b.writes.any WriteRequest.waitsAtExt

/-- The bank of a held access. -/
def HeldAccess.bank : HeldAccess → BankId
  | .wordRead b _ => b
  | .wordWrite b _ _ => b

/-- The host access waits at a bank port (R151). -/
def State.hostWaitsAt (s : State) (p : BankId) : Bool :=
  match s.host.held with
  | none => false
  | some a => a.bank = p

/-- The engine request a bank port's next take chooses: none while the host waits there, since the host is chosen
first (R151). -/
def State.bankChoice (s : State) (p : BankId) : Option (SlotId × Job × Burst) :=
  if s.hostWaitsAt p then none else s.arbitrate (Burst.waitsAtBank p) (s.bankPointer p)

/-- The request the next offer chooses (R135). -/
def State.extChoice (s : State) : Option (SlotId × Job × Burst) := s.arbitrate Burst.waitsAtExt s.ext.pointer

/-! ## When the host port takes an access (R157, R177) -/

/-- The bus is free to carry a host access: none is held (R157). -/
def State.busFree (s : State) : Bool := s.host.held.isNone

end Sys2Proof.Machine
end

