-- ==== Sys2Proof/Machine/HostWrites.lean ====
section
/-!
DEFINITION. What each host write does at the block that owns its register, and what the two reads with an effect do:
shared by the rows of the table and by the write at a window address (R177).
-/

namespace Sys2Proof.Machine

/-- A host write: ignored while the reset pin is asserted (R177); while an aperture access is held the bus carries no
other access (R157, log entry 6); otherwise its register's effect. -/
def State.hostWrite (s : State) (effect : State → State) : State :=
  if s.resetPin then s else if s.busFree then effect s else s

/-- A host read with an effect: while the reset pin is asserted it completes with data 0 and changes nothing (R177);
while an aperture access is held the bus carries no other access (R157, log entry 6). -/
def State.hostReadAccess (s : State) (effect : State → State) : State :=
  if s.resetPin then { s with host := { s.host with readData := 0 } }
  else if s.busFree then effect s
  else s

/-! ## Queues -/

/-- The staged command of a queue (R21). -/
def State.staged (s : State) (q : QueueId) : Parts := s.host.staging[q]

/-- A write to QnSTAGEk replaces part k (R21). -/
def State.writeStage (s : State) (q : QueueId) (k : Fin 4) (v : Half) : State :=
  { s with host := { s.host with staging := s.host.staging.set q ((s.staged q).set k v) } }

/-- A queue judges a push by its state and the number of commands it holds (R22). -/
def Queue.judgePush (x : Queue) : PushResult :=
  if x.state = .aborting then .aborting
  else if x.commands.length < Config.queueDepth then .accepted
  else .full

/-- The push happening at a queue (R22, R23). -/
def Queue.push (x : Queue) (p : Parts) : Queue :=
  match x.judgePush with
  | .accepted =>
    { x with commands := x.commands ++ [{ parts := p, seq := x.nextSeq }], nextSeq := x.nextSeq + 1,
             pushResult := .accepted }
  | r => { x with pushResult := r }

/-- A write to QnCOMMIT (R22). -/
def State.commit (s : State) (q : QueueId) : State := s.modQueue q fun x => x.push (s.staged q)

/-- The control result of a judged control command (R34). -/
def Queue.judged (x : Queue) (r : ControlResult) : Queue := { x with controlResult := r }

/-- START (R35). -/
def State.startQueue (s : State) (q : QueueId) : State :=
  s.modQueue q fun x =>
    match x.state with
    | .stopped => (x.withState .running).judged .accepted
    | .running | .stalledSlot | .stalledRoom | .fenced => x.judged .accepted
    | .halted | .aborting => x.judged .refused

/-- A queue leaves the posting wait list, if it is on it (R36, R39, R167). -/
def State.leaveWaiters (s : State) (q : QueueId) : State :=
  s.setCompletion { s.completion with waiters := s.completion.waiters.filter (· ≠ .queue q) }

/-- STOP; leaving STALLED leaves the slot arbiter's list, and the posting wait list is left (R36). -/
def State.stopQueue (s : State) (q : QueueId) : State :=
  match (s.queue q).state with
  | .running | .stalledSlot | .stalledRoom | .fenced =>
    (s.modQueue q fun x => (x.withState .stopped).judged .accepted).leaveWaiters q
  | .stopped => s.modQueue q fun x => x.judged .accepted
  | .halted | .aborting => s.modQueue q fun x => x.judged .refused

/-- RESUME (R37). -/
def State.resumeQueue (s : State) (q : QueueId) : State :=
  s.modQueue q fun x =>
    match x.state with
    | .halted => { x.withState .running with halt := none, controlResult := .accepted }
    | .stopped | .running | .stalledSlot | .stalledRoom | .fenced | .aborting => x.judged .refused

/-- SKIP (R38). -/
def State.skipQueue (s : State) (q : QueueId) : State :=
  s.modQueue q fun x =>
    match x.state with
    | .halted => { x.pop.withState .running with halt := none, controlResult := .accepted }
    | .stopped | .running | .stalledSlot | .stalledRoom | .fenced | .aborting => x.judged .refused

/-- A queue aborted, before its jobs are cancelled: every command is discarded and the halt reason cleared (R39). -/
def Queue.discard (x : Queue) : Queue :=
  { x with state := .stopped, commands := [], halt := none, controlResult := .accepted }

/-- ABORT: the commands are discarded, the lists are left, the ACTIVE and DRAINING jobs are cancelled one at a time in
ascending slot number, and the queue's new state follows from its count of jobs (R39, R83). -/
def State.abortQueue (s : State) (q : QueueId) : State :=
  match (s.queue q).state with
  | .aborting => s.modQueue q fun x => x.judged .accepted
  | .stopped | .running | .stalledSlot | .stalledRoom | .fenced | .halted =>
    let u := (s.modQueue q Queue.discard).leaveWaiters q
    let v := (List.finRange 8).foldl (State.cancelJob q) u
    v.modQueue q fun x => if x.jobs = 0 then x else x.withState .aborting

/-- A control command refused: only the control result changes (R34). -/
def State.refuseControl (s : State) (q : QueueId) : State := s.modQueue q fun x => x.judged .refused

/-- A write to QnCTL: bits 2:0 name a control command, or none and the write is refused; bits 31:3 are ignored
(R34, R183). -/
def State.writeControl (s : State) (q : QueueId) (v : Half) : State :=
  match (v.extractLsb' 0 3).toNat with
  | 1 => s.startQueue q
  | 2 => s.stopQueue q
  | 3 => s.resumeQueue q
  | 4 => s.skipQueue q
  | 5 => s.abortQueue q
  | _ => s.refuseControl q

/-! ## Tags, segment table, external configuration -/

/-- A write to TAGt: with bit 31 set it clears the poison if the count is 0; otherwise it does nothing (R49, R182). -/
def State.writeTag (s : State) (t : TagId) (v : Half) : State :=
  if v.getLsbD 31 && (s.tag t).count == 0 then s.setTag t { s.tag t with poison := false } else s

/-- A write to SEGm replaces the four fields of entry m (R117, R184). -/
def State.writeSegment (s : State) (m : SegIndex) (v : Half) : State := s.setSegment m (SegEntry.ofHalf v)

/-- A write to XCFG: XTIMEOUT takes bits 15:8; XSIZE takes bits 2:0 if they name a size (R146, R181). -/
def State.writeXcfg (s : State) (v : Half) : State :=
  { s with ext := { s.ext with
      xtimeout := v.extractLsb' 8 8
      xsize := (XSize.ofCode (v.extractLsb' 0 3)).getD s.ext.xsize } }

/-! ## Interrupts -/

/-- A write to ICAUSE clears each sticky cause whose bit is 1; the CPL bit is not used (R172). -/
def State.writeIcause (s : State) (v : Half) : State :=
  s.setInterrupts { s.interrupts with
    halt := s.interrupts.halt && !v.getLsbD 0
    note := s.interrupts.note && !v.getLsbD 1
    stray := s.interrupts.stray && !v.getLsbD 2 }

/-- A write to IMASK replaces the four mask bits (R174). -/
def State.writeImask (s : State) (v : Half) : State :=
  s.setInterrupts { s.interrupts with mask := v.extractLsb' 0 4 }

/-- A write to ICPLTH of 1 to 64 replaces the threshold, judged on the whole value; any other is ignored
(R173, R181). -/
def State.writeIcplth (s : State) (v : Half) : State :=
  if 1 ≤ v.toNat ∧ v.toNat ≤ 64 then s.setInterrupts { s.interrupts with threshold := v.toNat } else s

/-! ## Completion FIFO -/

/-- A poster that has left the wait list posts into the room given to it: its job posts and frees, or its NOTE posts
(R166). -/
def State.postNow (s : State) (p : Poster) : State :=
  match p with
  | .slot i =>
    match s.slot i with
    | none => s
    | some j => (s.post j.record).freeSlot i
  | .queue q =>
    match (s.queue q).commands with
    | [] => s
    | c :: _ => s.postNote q c

/-- The room a pop made goes to the oldest poster on the wait list (R166). -/
def State.giveRoom (s : State) : State :=
  match s.completion.waiters with
  | [] => s
  | p :: rest => (s.setCompletion { s.completion with waiters := rest }).postNow p

/-- The pop: the front record goes to the view and the room to the oldest waiter, or the view shows NONE (R169). -/
def State.popRecord (s : State) : State :=
  match s.completion.fifo with
  | [] => s.setCompletion { s.completion with view := none }
  | r :: rest => (s.setCompletion { s.completion with fifo := rest, view := some r }).giveRoom

/-! ## Aperture -/

/-- The word address advances by 1, and after 8191 becomes 0 in the same bank (R153). -/
def State.advanceAddress (s : State) : State := { s with host := { s.host with apWord := s.host.apWord + 1 } }

/-- A write to APADDR (R153, R181). -/
def State.writeApaddr (s : State) (v : Half) : State :=
  { s with host := { s.host with
      apWord := Fin.ofNat 8192 (v.extractLsb' 0 13).toNat
      apBank := Fin.ofNat 8 (v.extractLsb' 16 3).toNat } }

/-- A write to APDLO fills the write latch (R154). -/
def State.writeApdlo (s : State) (v : Half) : State := { s with host := { s.host with writeLatch := v } }

/-- A write to APDHI places a word write where APADDR names, and is held (R154, R157). -/
def State.writeApdhi (s : State) (v : Half) : State :=
  { s with host := { s.host with held := some (.wordWrite s.host.apBank s.host.apWord (v ++ s.host.writeLatch)) } }

/-- A read of APDLO places a word read where APADDR names, and is held (R155, R157). -/
def State.readApdlo (s : State) : State :=
  { s with host := { s.host with held := some (.wordRead s.host.apBank s.host.apWord) } }

/-- A read of APDHI returns the read latch and advances the address (R155). -/
def State.readApdhi (s : State) : State :=
  { s with host := { s.host with readData := s.host.readLatch } }.advanceAddress

/-- A write to APSTAT with the PARITY bit set clears the flag (R156). -/
def State.writeApstat (s : State) (v : Half) : State :=
  { s with host := { s.host with parity := s.host.parity && !v.getLsbD 0 } }

/-! ## Resets -/

/-- What both resets do: queues and staging (R21, R44), slot arbiter (R31), tags (R51), slots (R88), interlock (R114),
bank ports and aperture (R160), the port's pointer (R147, R148), FIFO, wait list, view and sticky causes
(R175, R176). -/
def State.resetCommon (s : State) : State :=
  { s with
    host := { HostPort.reset with readData := s.host.readData }
    queues := Vector.replicate 4 Queue.reset
    slotPointer := 3
    tags := Vector.replicate 32 { count := 0, poison := false }
    slots := Vector.replicate 8 none
    interlock := { table := [], waiters := [] }
    ext := { s.ext with pointer := 7 }
    bankPointers := Vector.replicate 8 7
    completion := { fifo := [], waiters := [], view := none }
    interrupts := { s.interrupts with halt := false, note := false, stray := false } }

/-- What a soft reset does to an ID: a standing offer is withdrawn and its ID FREE; an accepted ID is QUARANTINED
(R147). -/
def IdState.softReset : IdState → IdState
  | .free => .free
  | .quarantined => .quarantined
  | .busy b => if b.accepted then .quarantined else .free

/-- A vector with a function applied to each element. -/
def mapVector {α β : Type} {n : Nat} (f : α → β) (v : Vector α n) : Vector β n := ⟨⟨v.toList.map f⟩, by simp⟩

/-- The soft reset: it keeps the segment table, XCFG, IMASK, ICPLTH and the banks (R9, R116, R147, R176, R180). -/
def State.softReset (s : State) : State :=
  let u := s.resetCommon
  { u with ext := { u.ext with ids := mapVector IdState.softReset s.ext.ids } }

/-- A write to SYSCTL: with bit 0 set, the soft reset; otherwise nothing (R180). -/
def State.writeSysctl (s : State) (v : Half) : State := if v.getLsbD 0 then s.softReset else s

/-- The assertion of the reset pin: every block but the banks; a held access ends with read data 0 (R9, R116, R148,
R157, R175). -/
def State.pinReset (s : State) : State :=
  let u := s.resetCommon
  { u with
    resetPin := true
    host := { u.host with readData := if s.host.held.isSome then 0 else s.host.readData }
    segments := Vector.replicate 512 SegEntry.zero
    ext := { ids := Vector.replicate 16 .free, pointer := 7, xsize := .mib16, xtimeout := 64 }
    interrupts := { halt := false, note := false, stray := false, mask := 0xF, threshold := 1 } }

end Sys2Proof.Machine
end

