-- ==== Sys2Proof/Machine/Aperture.lean ====
section
/-!
DEFINITION. The host aperture: its accesses and the takes of the held word access (09_bank_ports_and_the_host_aperture.md).
-/

namespace Sys2Proof.Machine

/-- APDHI_WRITE (R154, R157). -/
def execApdhiWrite (value : Half) (s : State) : Host.Outcome State Fault Refusal :=
  .next (s.hostWrite fun u => u.writeApdhi value)

/-- APDLO_READ (R155, R157). -/
def execApdloRead (s : State) : Host.Outcome State Fault Refusal := .next (s.hostReadAccess State.readApdlo)

/-- APDHI_READ (R155). -/
def execApdhiRead (s : State) : Host.Outcome State Fault Refusal := .next (s.hostReadAccess State.readApdhi)

/-- APSTAT_WRITE (R156). -/
def execApstatWrite (value : Half) (s : State) : Host.Outcome State Fault Refusal :=
  .next (s.hostWrite fun u => u.writeApstat value)

/-- WORD_READ_TAKE (R155, R156, R157): the port takes the held word read, the host is given bits 31:0 and the read
latch bits 63:32, and a failed check sets PARITY. Where no word read is held nothing changes (log entry 1). -/
def execWordReadTake (s : State) : Host.Outcome State Fault Refusal :=
  match s.host.held with
  | some (.wordRead b w) =>
    let x := s.memory.readWord b w
    .next { s with host := { s.host with
      readData := x.data.extractLsb' 0 32
      readLatch := x.data.extractLsb' 32 32
      parity := s.host.parity || !x.agrees
      held := none } }
  | _ => .next s

/-- WORD_WRITE_TAKE (R154, R157): the port takes the held word write, stores it with fresh check bits, the word address
advances, and the access is released. Where no word write is held nothing changes (log entry 1). -/
def execWordWriteTake (s : State) : Host.Outcome State Fault Refusal :=
  match s.host.held with
  | some (.wordWrite b w x) =>
    .next { s with
      memory := s.memory.writeWord b w x
      host := { s.host with held := none } }.advanceAddress
  | _ => .next s

end Sys2Proof.Machine
end

