-- ==== Sys2Proof/Machine/EngineEvents.lean ====
section
/-!
DEFINITION. The transfer engine's own happenings: BURST_ISSUE, and the takes of burst reads and writes at the bank
ports (04_job_slots_and_burst_execution.md, 09_bank_ports_and_the_host_aperture.md).
-/

namespace Sys2Proof.Machine

/-- The in-flight limit: 1 for a serialized job, 4 otherwise (R66). -/
def Job.limit (j : Job) : Nat := if j.serialized then 1 else Config.inFlightLimit

/-- The job issues: it is ACTIVE, has a burst left to issue, and its bursts in flight are below its limit (R66). -/
def Job.mayIssue (j : Job) : Bool := j.state = .active && decide (j.next < j.command.count) && decide (j.inFlight < j.limit)

/-- A fresh burst context with its resolved addresses (R67, R69). -/
def Burst.issue (n : Nat) (sources dests : List Place) : Burst :=
  { index := n, state := .reading, sources := sources, dests := dests, reads := [], writes := [], failed := false }

/-- The job with its next burst in flight; it is DRAINING after its last (R63, R67). -/
def Job.addBurst (j : Job) (b : Burst) : Job :=
  { j with bursts := j.bursts ++ [b], next := j.next + 1,
           state := if j.next + 1 = j.command.count then .draining else j.state }

/-- A read-modify-write burst requests an entry for its key: granted, it goes to READING; otherwise to LOCK_WAIT at
the end of the wait list (R67, R105, R106). -/
def State.requestLock (s : State) (i : SlotId) (j : Job) (b : Burst) (key : Place) : State :=
  let w : LockRequest := { key := key, slot := i, burst := b.index }
  if s.interlock.grants key then
    (s.setSlot i (some (j.addBurst (b.startReading true)))).setInterlock
      { s.interlock with table := s.interlock.table ++ [w] }
  else
    (s.setSlot i (some (j.addBurst { b with state := .lockWait }))).setInterlock
      { s.interlock with waiters := s.interlock.waiters ++ [w] }

/-- A burst whose addresses are resolved goes to its first state (R67, step 3). -/
def State.placeBurst (s : State) (i : SlotId) (j : Job) (sources dests : List Place) : State :=
  let b := Burst.issue j.next sources dests
  match j.command.work with
  | .fill pattern _ => s.setSlot i (some (j.addBurst (b.startWriting (fillWords pattern))))
  | work =>
    if work.readsOldDestination then
      match dests with
      | key :: _ => s.requestLock i j b key
      | [] => s.setSlot i (some (j.addBurst (b.startReading true)))
    else s.setSlot i (some (j.addBurst (b.startReading false)))

/-- The issue happening of a job's next burst (R67, R68). -/
def State.issueBurst (s : State) (i : SlotId) (j : Job) : State :=
  let r := resolveBurst s.ext.xsize s.segments j.next j.command.work j.cursor
  match r.1 with
  | .error f => s.firstFault i { j with cursor := r.2 } f
  | .ok (sources, dests) => s.placeBurst i { j with cursor := r.2 } sources dests

/-- BURST_ISSUE (R66, R67, R68): a slot whose job may not issue issues nothing (log entry 1). -/
def execBurstIssue (i : SlotId) (s : State) : Host.Outcome State Fault Refusal :=
  match s.slot i with
  | none => .next s
  | some j => if j.mayIssue then .next (s.issueBurst i j) else .next s

/-- BURST_READ_TAKE (R70, R149, R151): the port's next take, when what it chooses is a burst read; the pointer moves to
the chosen slot, and the read returns in this happening. Otherwise the port takes no burst read and nothing changes
(log entry 1). -/
def execBurstReadTake (p : BankId) (s : State) : Host.Outcome State Fault Refusal :=
  match s.bankChoice p with
  | none => .next s
  | some (i, j, b) =>
    match b.reads.find? (ReadRequest.waitsAtBank p) with
    | some { role := role, place := .bank c k, stage := stage } =>
      .next ((s.setBankPointer p i).readReturns i j b { role := role, place := .bank c k, stage := stage }
        (s.memory.burstOutcome c k))
    | _ => .next s

/-- BURST_WRITE_TAKE (R72, R149, R151): the port's next take, when what it chooses is a burst write; the eight words
are stored and the write is done. Otherwise the port takes no burst write and nothing changes (log entry 1). -/
def execBurstWriteTake (p : BankId) (s : State) : Host.Outcome State Fault Refusal :=
  match s.bankChoice p with
  | none => .next s
  | some (i, j, b) =>
    match b.reads.find? (ReadRequest.waitsAtBank p) with
    | some _ => .next s
    | none =>
      match b.writes.find? (WriteRequest.waitsAtBank p) with
      | some { place := .bank c k, stage := stage, words := d } =>
        .next ({ s.setBankPointer p i with memory := s.memory.writeBurst c k d }.writeDone i j b
          { place := .bank c k, stage := stage, words := d })
      | _ => .next s

end Sys2Proof.Machine
end

