-- ==== Sys2Proof/Machine/HostCommands.lean ====
section
/-!
DEFINITION. The host's other writes: tags, segment table, external configuration, interrupts, the pop
(chapters 03, 07, 08, 10).
-/

namespace Sys2Proof.Machine

/-- CLEAR (R49, R182). -/
def execClear (t : TagId) (value : Half) (s : State) : Host.Outcome State Fault Refusal :=
  .next (s.hostWrite fun u => u.writeTag t value)

/-- SEG_WRITE (R117, R184). -/
def execSegWrite (m : SegIndex) (value : Half) (s : State) : Host.Outcome State Fault Refusal :=
  .next (s.hostWrite fun u => u.writeSegment m value)

/-- XCFG_WRITE (R146). -/
def execXcfgWrite (value : Half) (s : State) : Host.Outcome State Fault Refusal :=
  .next (s.hostWrite fun u => u.writeXcfg value)

/-- ICAUSE_WRITE (R172). -/
def execIcauseWrite (value : Half) (s : State) : Host.Outcome State Fault Refusal :=
  .next (s.hostWrite fun u => u.writeIcause value)

/-- IMASK_WRITE (R174). -/
def execImaskWrite (value : Half) (s : State) : Host.Outcome State Fault Refusal :=
  .next (s.hostWrite fun u => u.writeImask value)

/-- ICPLTH_WRITE (R173). -/
def execIcplthWrite (value : Half) (s : State) : Host.Outcome State Fault Refusal :=
  .next (s.hostWrite fun u => u.writeIcplth value)

/-- CFPOP (R169, R166). -/
def execCfpop (s : State) : Host.Outcome State Fault Refusal := .next (s.hostWrite State.popRecord)

end Sys2Proof.Machine
end

