-- ==== Sys2Proof/Machine/PortEvents.lean ====
section
/-!
DEFINITION. The happenings of the external memory port: OFFER, ACCEPTANCE, RESPONSE, EXPIRY (08_external_memory_port.md).
While the reset pin is asserted the port takes none of them (R148).
-/

namespace Sys2Proof.Machine

/-- The external burst a place names. -/
def Place.extAddress : Place → Nat
  | .ext x => x
  | .bank _ _ => 0

/-- The chosen request takes an ID, which becomes BUSY with accepted clear and no timer, and the pointer is set to its
slot (R135). -/
def State.giveId (s : State) (d : ReqId) (i : SlotId) (n : Nat) (role : RequestRole) (address : Nat) : State :=
  let u := s.setReqId d (.busy { slot := i, burst := n, role := role, address := address, accepted := false, timer := none })
  { u with ext := { u.ext with pointer := i } }

/-- The offer of the request that the arbiter chose, on the lowest FREE ID (R135). -/
def State.offerRequest (s : State) (d : ReqId) (i : SlotId) (j : Job) (b : Burst) : State :=
  match b.reads.find? ReadRequest.waitsAtExt with
  | some r =>
    (s.setSlot i (some (j.putBurst (b.setRead r .sent)))).giveId d i b.index (.read r.role) r.place.extAddress
  | none =>
    match b.writes.find? WriteRequest.waitsAtExt with
    | some w => (s.setSlot i (some (j.putBurst (b.setWrite w .sent)))).giveId d i b.index .write w.place.extAddress
    | none => s

/-- OFFER (R135): made when no offer stands, an ID is FREE and a request waits; otherwise there is none and nothing
changes (log entry 1). -/
def execOffer (s : State) : Host.Outcome State Fault Refusal :=
  if s.resetPin || s.standingOffer.isSome then .next s
  else
    match s.freeReqId, s.extChoice with
    | some d, some (i, j, b) => .next (s.offerRequest d i j b)
    | _, _ => .next s

/-- The timer an acceptance starts: none when XTIMEOUT is 0 (R137). -/
def startTimer (xtimeout : BitVec 8) : Option (BitVec 8) := if xtimeout = 0 then none else some xtimeout

/-- ACCEPTANCE (R137): the standing offer's ID is accepted and its timer started; ignored while no offer stands. -/
def execAcceptance (s : State) : Host.Outcome State Fault Refusal :=
  if s.resetPin then .next s
  else
    match s.standingOffer with
    | none => .next s
    | some d =>
      match s.reqId d with
      | .busy b => .next (s.setReqId d (.busy { b with accepted := true, timer := startTimer s.ext.xtimeout }))
      | _ => .next s

/-- What comes of an accepted request: eight words or done, or the fault EXT_ERROR or EXT_TIMEOUT. -/
inductive ExtOutcome where
  | ok (d : BurstData)
  | failed (f : JobFault)
  deriving DecidableEq, Repr

/-- The fault of a failed external request: word 0 of the burst the request named (R15, R138, R139). -/
def extFault (f : JobFault) (address : Nat) : PlacedFault := { fault := f, place := .ext (8 * address) }

/-- The outcome of a read as its burst receives it. -/
def ExtOutcome.forRead (o : ExtOutcome) (address : Nat) : ReadOutcome :=
  match o with
  | .ok d => .words d
  | .failed f => .failed (extFault f address)

/-- Deliver an outcome to the burst that owns the ID (R138, R139). -/
def State.deliver (s : State) (b : BusyId) (o : ExtOutcome) : State :=
  match s.owner b with
  | none => s
  | some (j, c) =>
    match b.role with
    | .read role =>
      match c.reads.find? fun r => r.isSent && r.role = role && r.place = .ext b.address with
      | none => s
      | some r => s.readReturns b.slot j c r (o.forRead b.address)
    | .write =>
      match c.writes.find? fun w => w.stage = .sent && w.place = .ext b.address with
      | none => s
      | some w =>
        match o with
        | .ok _ => s.writeDone b.slot j c w
        | .failed f => s.writeFails b.slot j c (extFault f b.address)

/-- A stray response: discarded, and the STRAY cause is set (R142). -/
def State.strayResponse (s : State) : State := s.setInterrupts { s.interrupts with stray := true }

/-- The outcome a response carries. -/
def responseOutcome (result : ResponseResult) (data : BurstData) : ExtOutcome :=
  match result with
  | .ok => .ok data
  | .error => .failed .extError

/-- RESPONSE (R138, R141, R142): judged by the state of the ID it names. -/
def execResponse (d : ReqId) (result : ResponseResult) (data : BurstData) (s : State) :
    Host.Outcome State Fault Refusal :=
  if s.resetPin then .next s
  else
    match s.reqId d with
    | .free => .next s.strayResponse
    | .quarantined => .next (s.setReqId d .free)
    | .busy b =>
      if b.accepted then .next ((s.setReqId d .free).deliver b (responseOutcome result data))
      else .next s.strayResponse

/-- EXPIRY (R139): the timer of a BUSY accepted ID runs out; where no timer runs there is no expiry and nothing changes
(log entries 1 and 5). -/
def execExpiry (d : ReqId) (s : State) : Host.Outcome State Fault Refusal :=
  if s.resetPin then .next s
  else
    match s.reqId d with
    | .busy b =>
      if b.accepted && b.timer.isSome then .next ((s.setReqId d .quarantined).deliver b (.failed .extTimeout))
      else .next s
    | _ => .next s

end Sys2Proof.Machine
end

