-- ==== Sys2Proof/Machine/QueueCommands.lean ====
section
/-!
DEFINITION. The commands of the queues: PUSH, the control commands, and TAKE (02_command_queues.md).
-/

namespace Sys2Proof.Machine

/-- PUSH (R22): a write to QnCOMMIT. -/
def execPush (q : QueueId) (s : State) : Host.Outcome State Fault Refusal := .next (s.hostWrite fun u => u.commit q)

/-- START (R35). -/
def execStart (q : QueueId) (s : State) : Host.Outcome State Fault Refusal :=
  .next (s.hostWrite fun u => u.startQueue q)

/-- STOP (R36). -/
def execStop (q : QueueId) (s : State) : Host.Outcome State Fault Refusal :=
  .next (s.hostWrite fun u => u.stopQueue q)

/-- RESUME (R37). -/
def execResume (q : QueueId) (s : State) : Host.Outcome State Fault Refusal :=
  .next (s.hostWrite fun u => u.resumeQueue q)

/-- SKIP (R38). -/
def execSkip (q : QueueId) (s : State) : Host.Outcome State Fault Refusal :=
  .next (s.hostWrite fun u => u.skipQueue q)

/-- ABORT (R39, R83). -/
def execAbort (q : QueueId) (s : State) : Host.Outcome State Fault Refusal :=
  .next (s.hostWrite fun u => u.abortQueue q)

/-- CONTROL_CODE_REFUSED (R34, R183): a write to QnCTL; a code of 0, 6 or 7 is refused. A value that names a control
command (which is not this row, see WellFormed) is judged as the register's rule gives (log entry 11). -/
def execControlCodeRefused (q : QueueId) (value : Half) (s : State) : Host.Outcome State Fault Refusal :=
  .next (s.hostWrite fun u => u.writeControl q value)

/-- A decoded MOVE or TABLOAD is carried out: it enters the lowest FREE slot, or its queue is STALLED(SLOT) (R30). -/
def State.carryOutJob (s : State) (q : QueueId) (seq : BitVec 16) (j : JobCommand) : State :=
  match s.freeSlotIndex with
  | some i => s.enterSlot i q seq j
  | none => s.modQueue q fun x => x.withState .stalledSlot

/-- A decoded NOTE is carried out: it posts, or its queue is STALLED(ROOM) on the posting wait list (R33, R164). -/
def State.carryOutNote (s : State) (q : QueueId) (c : HeldCommand) : State :=
  if s.hasRoom then s.postNote q c
  else (s.modQueue q fun x => x.withState .stalledRoom).joinWaiters (.queue q)

/-- The take of a head: decode, then by its kind, or halt (R25, R29, R30, R32, R33). -/
def State.takeCommand (s : State) (q : QueueId) (c : HeldCommand) : State :=
  match c.parts.decode s.ext.xsize with
  | .error e => s.haltQueue q { code := e, origin := .decode, seq := c.seq }
  | .ok (.job j) => s.carryOutJob q c.seq j
  | .ok (.wait _ _) => s.evaluateFence q c
  | .ok (.note _ _) => s.carryOutNote q c

/-- TAKE (R25): only a RUNNING queue that holds a command takes; otherwise there is no take and nothing changes
(log entry 1). -/
def execTake (q : QueueId) (s : State) : Host.Outcome State Fault Refusal :=
  match (s.queue q).state, (s.queue q).commands with
  | .running, c :: _ => .next (s.takeCommand q c)
  | _, _ => .next s

end Sys2Proof.Machine
end

