-- ==== Sys2Proof/Machine/Resets.lean ====
section
/-!
DEFINITION. The soft reset and the pin reset (11 section 11.3; 08 section 8.8; 10 section 10.6).
-/

namespace Sys2Proof.Machine

/-- SOFT_RESET (R180): a write to SYSCTL. -/
def execSoftReset (value : Half) (s : State) : Host.Outcome State Fault Refusal :=
  .next (s.hostWrite fun u => u.writeSysctl value)

/-- PIN_RESET (R148, R157, R175). -/
def execPinReset (s : State) : Host.Outcome State Fault Refusal := .next s.pinReset

/-- PIN_RESET_END (R148): the port reset output is deasserted and happenings are taken again, from the condition the
reset left. -/
def execPinResetEnd (s : State) : Host.Outcome State Fault Refusal := .next { s with resetPin := false }

end Sys2Proof.Machine
end

