-- ==== Sys2Proof/Machine/RegisterMap.lean ====
section
/-!
DEFINITION. The window map (R179): the registers and the address each is at.
-/

namespace Sys2Proof.Machine

/-- The registers of the window (R179). -/
inductive Register where
  | sysctl
  | xcfg
  | xstat
  | icause
  | imask
  | icplth
  | cfpop
  | cfview (k : Fin 4)
  | apaddr
  | apdlo
  | apdhi
  | apstat
  | tag (t : TagId)
  | stage (q : QueueId) (k : Fin 4)
  | commit (q : QueueId)
  | ctl (q : QueueId)
  | state (q : QueueId)
  | seq (q : QueueId)
  | halt (q : QueueId)
  | seg (m : SegIndex)
  deriving DecidableEq, Repr

/-- The register at an offset of a queue block (R179, the last table). -/
def queueRegisterAt (q : QueueId) (offset : Nat) : Option Register :=
  if offset < 0x10 then some (.stage q (Fin.ofNat 4 (offset / 4)))
  else if offset = 0x10 then some (.commit q)
  else if offset = 0x14 then some (.ctl q)
  else if offset = 0x18 then some (.state q)
  else if offset = 0x1C then some (.seq q)
  else if offset = 0x20 then some (.halt q)
  else none

/-- The global register at an offset below 0x100 (R179, the second table). -/
def globalRegisterAt (offset : Nat) : Option Register :=
  if offset = 0x000 then some .sysctl
  else if offset = 0x004 then some .xcfg
  else if offset = 0x008 then some .xstat
  else if offset = 0x010 then some .icause
  else if offset = 0x014 then some .imask
  else if offset = 0x018 then some .icplth
  else if offset = 0x020 then some .cfpop
  else if offset = 0x024 then some (.cfview 0)
  else if offset = 0x028 then some (.cfview 1)
  else if offset = 0x02C then some (.cfview 2)
  else if offset = 0x030 then some (.cfview 3)
  else if offset = 0x040 then some .apaddr
  else if offset = 0x044 then some .apdlo
  else if offset = 0x048 then some .apdhi
  else if offset = 0x04C then some .apstat
  else none

/-- The register an access reaches: the one at its address with the two lowest bits taken as 0 (R177, R179);
none where the map names none. -/
def registerAt (addr : BitVec 12) : Option Register :=
  let a := addr.toNat / 4 * 4
  if a < 0x100 then globalRegisterAt a
  else if a < 0x180 then some (.tag (Fin.ofNat 32 ((a - 0x100) / 4)))
  else if a < 0x200 then none
  else if a < 0x400 then queueRegisterAt (Fin.ofNat 4 ((a - 0x200) / 0x80)) ((a - 0x200) % 0x80)
  else if a < 0x800 then none
  else some (.seg (Fin.ofNat 512 ((a - 0x800) / 4)))

end Sys2Proof.Machine
end

