-- ==== Sys2Proof/Machine/Window.lean ====
section
/-!
DEFINITION. The register window: the write at an address (R177), and the value every register shows to a read
(R181 to R184, R186 to R188).
-/

namespace Sys2Proof.Machine

/-! ## Writes (R177) -/

/-- A write to a register: its own rule's effect; a read-only register ignores it (R177). -/
def State.writeRegister (s : State) (r : Register) (v : Half) : State :=
  match r with
  | .sysctl => s.writeSysctl v
  | .xcfg => s.writeXcfg v
  | .icause => s.writeIcause v
  | .imask => s.writeImask v
  | .icplth => s.writeIcplth v
  | .cfpop => s.popRecord
  | .apaddr => s.writeApaddr v
  | .apdlo => s.writeApdlo v
  | .apdhi => s.writeApdhi v
  | .apstat => s.writeApstat v
  | .tag t => s.writeTag t v
  | .stage q k => s.writeStage q k v
  | .commit q => s.commit q
  | .ctl q => s.writeControl q v
  | .seg m => s.writeSegment m v
  | .xstat | .cfview _ | .state _ | .seq _ | .halt _ => s

/-- A write at an address: none where the map names no register (R177, R179). -/
def State.writeAddress (s : State) (addr : BitVec 12) (v : Half) : State :=
  match registerAt addr with
  | none => s
  | some r => s.writeRegister r v

/-- REGISTER_WRITE (R177): the host write at an address. For QnSTAGEk, APADDR and APDLO the value is stored as the
register's rule gives; an address of a register with a behaviour of its own reaches that behaviour (log entry 10). -/
def execRegisterWrite (addr : BitVec 12) (value : Half) (s : State) : Host.Outcome State Fault Refusal :=
  .next (s.hostWrite fun u => u.writeAddress addr value)

/-! ## Codes (R183, R187, R188) -/

/-- The code of a job fault (R188). -/
def JobFault.code : JobFault → Nat
  | .extRange => 2
  | .extError => 3
  | .extTimeout => 4
  | .bankParity => 5
  | .segInvalid => 6
  | .segRange => 7
  | .segOverrun => 8

/-- The code of a record's status (R188). -/
def Status.code : Status → Nat
  | .ok => 0
  | .cancelled => 1
  | .fault f => f.code

/-- The code of a halt reason (R188). -/
def HaltCode.code : HaltCode → Nat
  | .job f => f.code
  | .badKind => 9
  | .badForm => 10
  | .badLength => 11
  | .fencePoisoned => 12

/-- The origin field of QnHALT (R183). -/
def HaltOrigin.code : HaltOrigin → Nat
  | .decode => 1
  | .fence => 2
  | .job => 3

/-- The state field of QnSTATE (R183). -/
def QueueState.code : QueueState → Nat
  | .stopped => 0
  | .running => 1
  | .stalledSlot => 2
  | .stalledRoom => 2
  | .fenced => 3
  | .halted => 4
  | .aborting => 5

/-- The sub-reason bit of QnSTATE (R183). -/
def QueueState.subReason : QueueState → Nat
  | .stalledRoom => 1
  | _ => 0

/-- The push result field of QnSTATE (R183). -/
def PushResult.code : PushResult → Nat
  | .none => 0
  | .accepted => 1
  | .full => 2
  | .aborting => 3

/-- The control result field of QnSTATE (R183). -/
def ControlResult.code : ControlResult → Nat
  | .none => 0
  | .accepted => 1
  | .refused => 2

/-! ## Reads -/

/-- A field of a value shown: `n` cut to `width` bits, from bit `lo` up. -/
def showField (lo width n : Nat) : Half := BitVec.ofNat 32 (n % 2 ^ width * 2 ^ lo)

/-- XSTAT (R146, R181). -/
def State.showXstat (s : State) : Half :=
  showField 0 5 s.busyCount ||| showField 8 5 s.quarantinedCount ||| showField 16 1 s.standingOffer.isSome.toNat

/-- QnSTATE (R43, R183). -/
def Queue.showState (x : Queue) : Half :=
  showField 0 3 x.state.code ||| showField 3 1 x.state.subReason ||| showField 4 6 x.commands.length |||
    showField 10 4 x.jobs ||| showField 16 2 x.pushResult.code ||| showField 18 2 x.controlResult.code

/-- QnSEQ (R43, R183). -/
def Queue.showSeq (x : Queue) : Half := x.headSeq ++ x.nextSeq

/-- QnHALT (R43, R183). -/
def Queue.showHalt (x : Queue) : Half :=
  match x.halt with
  | none => 0
  | some h => showField 0 4 h.code.code ||| showField 4 2 h.origin.code ||| showField 16 16 h.seq.toNat

/-- The kind field of CFVIEW0 for a job (R187). -/
def JobKind.code : JobKind → Nat
  | .move => 1
  | .tabload => 2

/-- CFVIEW0 (R187). -/
def Record.view0 : Record → Half
  | .job kind status queue seq tag _ _ place =>
    showField 0 16 seq.toNat ||| showField 16 2 kind.code ||| showField 18 4 status.code |||
      showField 22 2 queue.val ||| showField 24 1 tag.isSome.toNat |||
      showField 25 5 ((tag.map Fin.val).getD 0) ||| showField 30 1 place.isSome.toNat
  | .note queue seq _ => showField 0 16 seq.toNat ||| showField 16 2 3 ||| showField 22 2 queue.val

/-- CFVIEW1 (R187). -/
def Record.view1 : Record → Half
  | .job _ _ _ _ _ done saturation _ => showField 0 14 done ||| showField 16 16 saturation
  | .note _ _ mark => showField 0 16 mark.toNat

/-- The fault place of a record, if it carries one. -/
def Record.place : Record → Option FaultPlace
  | .job _ _ _ _ _ _ _ place => place
  | .note _ _ _ => none

/-- CFVIEW2 for a fault place (R187). -/
def FaultPlace.view2 : FaultPlace → Half
  | .bank b _ => showField 2 3 b.val
  | .ext _ => showField 0 2 1
  | .segtab _ => showField 0 2 2

/-- CFVIEW3 for a fault place (R187). -/
def FaultPlace.view3 : FaultPlace → Half
  | .bank _ w => showField 0 32 w.val
  | .ext w => showField 0 32 w
  | .segtab n => showField 0 32 n.val

/-- CFVIEW0 to CFVIEW3 of the view record; kind NONE reads as 0 in all four (R170, R187). -/
def State.showView (s : State) (k : Fin 4) : Half :=
  match s.completion.view with
  | none => 0
  | some r =>
    match k with
    | 0 => r.view0
    | 1 => r.view1
    | 2 => (r.place.map FaultPlace.view2).getD 0
    | 3 => (r.place.map FaultPlace.view3).getD 0

/-- The value a register shows to a host read that changes nothing (R177, R178); none for APDLO, whose read makes a
bank access and is the command APDLO_READ. For APDHI it is the data that the command APDHI_READ returns. A write-only
register reads as 0. -/
def State.showRegister (s : State) : Register → Option Half
  | .sysctl | .commit _ | .ctl _ => some 0
  | .xcfg => some (showField 0 3 s.ext.xsize.code ||| showField 8 8 s.ext.xtimeout.toNat)
  | .xstat => some s.showXstat
  | .icause => some (s.causes.setWidth 32)
  | .imask => some (s.interrupts.mask.setWidth 32)
  | .icplth => some (showField 0 7 s.interrupts.threshold)
  | .cfpop => some (showField 0 7 s.completion.fifo.length ||| showField 16 4 s.completion.waiters.length)
  | .cfview k => some (s.showView k)
  | .apaddr => some (showField 0 13 s.host.apWord.val ||| showField 16 3 s.host.apBank.val)
  | .apdlo => none
  | .apdhi => some s.host.readLatch
  | .apstat => some (showField 0 1 s.host.parity.toNat)
  | .tag t => some (showField 0 4 (s.tag t).count ||| showField 8 1 (s.tag t).poison.toNat)
  | .stage q k => some (s.staged q)[k]
  | .state q => some (s.queue q).showState
  | .seq q => some (s.queue q).showSeq
  | .halt q => some (s.queue q).showHalt
  | .seg m => some (s.segment m).toHalf

/-- What a host read at an address returns, for the reads that change nothing: 0 where no register is reached, and 0
while the reset pin is asserted (R177). -/
def State.readRegister (s : State) (addr : BitVec 12) : Option Half :=
  if s.resetPin then some 0
  else
    match registerAt addr with
    | none => some 0
    | some r => s.showRegister r

end Sys2Proof.Machine
end

