-- ==== Sys2Proof/Machine/Dispatch.lean ====
section
/-!
DEFINITION. The dispatch: one arm per command, each a direct call of its meaning.
-/

namespace Sys2Proof.Machine

/-- The effect of a command on everything but the queue of commands. -/
def exec (i : Instr) (s : State) : Host.Outcome State Fault Refusal :=
  match i with
  | .push q => Sys2Proof.Machine.execPush q s
  | .start q => Sys2Proof.Machine.execStart q s
  | .stop q => Sys2Proof.Machine.execStop q s
  | .resume q => Sys2Proof.Machine.execResume q s
  | .skip q => Sys2Proof.Machine.execSkip q s
  | .abort q => Sys2Proof.Machine.execAbort q s
  | .take q => Sys2Proof.Machine.execTake q s
  | .burstIssue n => Sys2Proof.Machine.execBurstIssue n s
  | .burstReadTake p => Sys2Proof.Machine.execBurstReadTake p s
  | .burstWriteTake p => Sys2Proof.Machine.execBurstWriteTake p s
  | .wordReadTake => Sys2Proof.Machine.execWordReadTake s
  | .wordWriteTake => Sys2Proof.Machine.execWordWriteTake s
  | .offer => Sys2Proof.Machine.execOffer s
  | .acceptance => Sys2Proof.Machine.execAcceptance s
  | .response d result data => Sys2Proof.Machine.execResponse d result data s
  | .expiry d => Sys2Proof.Machine.execExpiry d s
  | .clear t value => Sys2Proof.Machine.execClear t value s
  | .segWrite m value => Sys2Proof.Machine.execSegWrite m value s
  | .xcfgWrite value => Sys2Proof.Machine.execXcfgWrite value s
  | .icauseWrite value => Sys2Proof.Machine.execIcauseWrite value s
  | .imaskWrite value => Sys2Proof.Machine.execImaskWrite value s
  | .icplthWrite value => Sys2Proof.Machine.execIcplthWrite value s
  | .cfpop => Sys2Proof.Machine.execCfpop s
  | .apdhiWrite value => Sys2Proof.Machine.execApdhiWrite value s
  | .apdloRead => Sys2Proof.Machine.execApdloRead s
  | .apdhiRead => Sys2Proof.Machine.execApdhiRead s
  | .apstatWrite value => Sys2Proof.Machine.execApstatWrite value s
  | .registerWrite addr value => Sys2Proof.Machine.execRegisterWrite addr value s
  | .softReset value => Sys2Proof.Machine.execSoftReset value s
  | .pinReset => Sys2Proof.Machine.execPinReset s
  | .pinResetEnd => Sys2Proof.Machine.execPinResetEnd s
  | .controlCodeRefused q value => Sys2Proof.Machine.execControlCodeRefused q value s

end Sys2Proof.Machine
end

