-- ==== Sys2Proof/Safety.lean ====
section
/-!
DEFINITION. What the manual says holds of the machine at every moment, block by block: the invariants that the claims
use. Each is stated of a state, with the rule it comes from.
-/

namespace Sys2Proof.Safety

open Sys2Proof.Machine

/-! ## The host port -/

/-- The host port takes an access: the reset pin is deasserted (R177) and no access is held on the bus (R157). -/
def HostPortFree (s : State) : Prop := s.resetPin = false ∧ s.host.held = none

/-! ## The form of commands, in the bits of their parts (R27, R28, R185) -/

/-- How many bank mask bits of a side are set. -/
def maskCount (part : Half) : Nat := (List.finRange 8).countP fun n => part.getLsbD (22 + n.val)

/-- A side whose space code is legal and, for BANK, whose mask has exactly one bit (R27). -/
def OneBankOrExternal (part : Half) : Prop :=
  (sideSpace part = 0 ∧ maskCount part = 1) ∨ sideSpace part = 1 ∨ sideSpace part = 2

/-- The operator code of part 0 names one of the ten operators (R185). -/
def OpLegal (p : Parts) : Prop := (p[0].extractLsb' 6 4).toNat < 10

/-- The form rules of a MOVE: the table of R27 and its four further rules. -/
def MoveFormLegal (p : Parts) : Prop :=
  p[0].extractLsb' 14 2 ≠ 3 ∧
  ((p.mode = 0 ∧ OneBankOrExternal p[1] ∧ OneBankOrExternal p[2] ∧ ¬(sideSpace p[1] = 2 ∧ sideSpace p[2] = 2)) ∨
   (p.mode = 1 ∧ OneBankOrExternal p[2]) ∨
   (p.mode = 2 ∧ OpLegal p ∧ OneBankOrExternal p[1] ∧ OneBankOrExternal p[2] ∧
      ¬(sideSpace p[1] = 2 ∧ sideSpace p[2] = 2)) ∨
   (p.mode = 3 ∧ OpLegal p ∧ sideSpace p[1] = 0 ∧ 2 ≤ maskCount p[1] ∧ OneBankOrExternal p[2]) ∨
   (p.mode = 4 ∧ OneBankOrExternal p[1] ∧ sideSpace p[2] = 0 ∧ 1 ≤ maskCount p[2]))

/-- The form rules of a TABLOAD (R28). -/
def TabloadFormLegal (p : Parts) : Prop :=
  maskCount p[1] = 1 ∧ p.tableStart.toNat % 16 = 0 ∧
  (p.entryCount % 16 = 0 ∧ 16 ≤ p.entryCount ∧ p.entryCount ≤ 512) ∧ p[0].extractLsb' 14 2 ≠ 3

/-- A side that is direct EXT and whose address plus the count is more than S (R11, R26). -/
def BeyondExternal (x : XSize) (n : Nat) (part : Half) : Prop :=
  sideSpace part = 1 ∧ x.bursts < (sideAddress part).toNat + n

/-! ## What decode reads, in the bits of the parts (R185) -/

/-- The code of an operator. -/
def opCode : Op → Nat
  | .add => 0
  | .adds => 1
  | .addu => 2
  | .maxs => 3
  | .mins => 4
  | .maxu => 5
  | .minu => 6
  | .and => 7
  | .or => 8
  | .xor => 9

/-- The code of a report policy. -/
def reportCode : Report → Nat
  | .always => 0
  | .onFault => 1
  | .never => 2

/-- A side as its part gives it: by the space code, the one bank of the mask with the address, or external memory direct
or through the segment table. -/
def ReadsSide (part : Half) : Side → Prop
  | .bank b a => part.extractLsb' 30 2 = 0 ∧ part.getLsbD (22 + b.val) = true ∧ a = part.extractLsb' 0 22
  | .ext a => part.extractLsb' 30 2 = 1 ∧ a = part.extractLsb' 0 22
  | .extseg m => part.extractLsb' 30 2 = 2 ∧ m = part.extractLsb' 0 22

/-- The banks of a side that may select several: those whose mask bits are set, in ascending bank number (R4). -/
def ReadsBanks (part : Half) (banks : List BankId) : Prop :=
  banks.Pairwise (· < ·) ∧ ∀ b : BankId, b ∈ banks ↔ part.getLsbD (22 + b.val) = true

/-- The operator and the width as part 0 gives them. -/
def ReadsOp (p : Parts) (op : Op) (width : Width) : Prop :=
  opCode op = (p[0].extractLsb' 6 4).toNat ∧ width.bits = 8 * 2 ^ (p[0].extractLsb' 10 2).toNat

/-- The work of a MOVE as its four parts give it, mode by mode. -/
def ReadsMove (p : Parts) : Work → Prop
  | .copy src dst => p.mode = 0 ∧ ReadsSide p[1] src ∧ ReadsSide p[2] dst
  | .fill pattern dst => p.mode = 1 ∧ pattern = p[1] ∧ ReadsSide p[2] dst
  | .accum op width src dst => p.mode = 2 ∧ ReadsOp p op width ∧ ReadsSide p[1] src ∧ ReadsSide p[2] dst
  | .merge op width accumulate banks a dst =>
      p.mode = 3 ∧ ReadsOp p op width ∧ accumulate = p[0].getLsbD 22 ∧ ReadsBanks p[1] banks ∧
      a = p[1].extractLsb' 0 22 ∧ ReadsSide p[2] dst
  | .spread src banks a =>
      p.mode = 4 ∧ ReadsSide p[1] src ∧ ReadsBanks p[2] banks ∧ a = p[2].extractLsb' 0 22
  | .tabload _ _ _ => False

/-- The work of a TABLOAD as its parts give it. -/
def ReadsTabload (p : Parts) (w : Work) : Prop :=
  ∃ b : BankId, p[1].getLsbD (22 + b.val) = true ∧ w = .tabload b (p[1].extractLsb' 0 22) (p[2].extractLsb' 0 9)

/-- What a MOVE and a TABLOAD share: the parts carried unchanged, the priority, the report policy, and the tag, which is
carried exactly when bit 16 is set. -/
def ReadsHeader (p : Parts) (j : JobCommand) : Prop :=
  j.parts = p ∧ j.priority.val = (p[0].extractLsb' 12 2).toNat ∧ reportCode j.report = (p[0].extractLsb' 14 2).toNat ∧
  (j.tag.isSome = true ↔ p[0].getLsbD 16 = true) ∧ ∀ t ∈ j.tag, t.val = (p[0].extractLsb' 17 5).toNat

/-! ## Ranges and walks (R5, R14, R79, R122) -/

/-- Two ranges of n bursts of one bank, from a and from d with the wrap, share a burst (R5). -/
def BankRangesMeet (n a d : Nat) : Prop := ∃ i k, i < n ∧ k < n ∧ (a + i) % 1024 = (d + k) % 1024

/-- Two ranges of n external bursts share a burst (R14). -/
def ExtRangesMeet (n a d : Nat) : Prop := ∃ i k, i < n ∧ k < n ∧ a + i = d + k

/-- A source side and a destination side overlap with a non-zero offset in one of the two ways of R79. -/
def SidesOverlap (n : Nat) (src dst : Side) : Prop :=
  (∃ b a d, src = .bank b a ∧ dst = .bank b d ∧ BankRangesMeet n a.toNat d.toNat ∧
    a.toNat % 1024 ≠ d.toNat % 1024) ∨
  (∃ a d, src = .ext a ∧ dst = .ext d ∧ ExtRangesMeet n a.toNat d.toNat ∧ a ≠ d)

/-- The first n bursts of a walk from a cursor, with the cursor they leave (R122). -/
def walkMany (x : XSize) (table : Vector SegEntry 512) : Nat → Cursor → Except PlacedFault (List Nat) × Cursor
  | 0, c => (.ok [], c)
  | n + 1, c =>
    match walkBurst x table c with
    | (.error f, d) => (.error f, d)
    | (.ok a, d) =>
      match walkMany x table n d with
      | (.error f, e) => (.error f, e)
      | (.ok l, e) => (.ok (a :: l), e)

/-! ## Queues and tags -/

/-- The number of slots whose job satisfies a test. -/
def jobsWith (s : State) (p : Job → Bool) : Nat := (List.finRange 8).countP fun i => (s.slot i).any p

/-- "The count is the number of slots that are not FREE and whose job was issued by this queue" (R30). -/
def JobsCounted (s : State) : Prop := ∀ q, (s.queue q).jobs = jobsWith s fun j => j.queue = q

/-- "For every tag, the count equals the number of job slots not FREE whose job carries that tag" (R45). -/
def TagsCounted (s : State) : Prop := ∀ t, (s.tag t).count = jobsWith s fun j => j.command.tag = some t

/-- A queue holds at most 32 commands, and they carry consecutive sequence numbers modulo 65536, the last of them the
one before the next sequence number (R16, R23). -/
def QueueOrdered (x : Queue) : Prop :=
  x.commands.length ≤ Config.queueDepth ∧
    ∀ n (h : n < x.commands.length),
      (x.commands[n]).seq + BitVec.ofNat 16 (x.commands.length - n) = x.nextSeq

/-- Every queue is ordered (R16). -/
def QueuesOrdered (s : State) : Prop := ∀ q, QueueOrdered (s.queue q)

/-- The head of a queue, if it holds a command, satisfies a test; an empty queue does not. -/
def headIs (x : Queue) (p : Parts → Bool) : Bool := (x.commands.head?).any fun c => p c.parts

/-- A queue is FENCED only with a WAIT at its head, STALLED(SLOT) only with a MOVE or TABLOAD of legal form and length
there, STALLED(ROOM) only with a NOTE (R24, R26); an ABORTING queue holds no commands (R22, R24); and the halt reason is
none exactly while the queue is not HALTED (R42). -/
def QueueSound (x : Queue) : Prop :=
  (x.state = .fenced → headIs x fun p => p.kind = 3) ∧
  (x.state = .stalledSlot → headIs x fun p => p.job.any fun j => decide (1 ≤ j.count ∧ j.count ≤ 8192)) ∧
  (x.state = .stalledRoom → headIs x fun p => p.kind = 4) ∧
  (x.state = .aborting → x.commands = []) ∧
  (x.halt.isSome ↔ x.state = .halted)

/-- Every queue is sound (R24, R42). -/
def QueuesSound (s : State) : Prop := ∀ q, QueueSound (s.queue q)

/-- A queue is STALLED(SLOT) only while no slot is FREE, since every free is granted at once while queues wait (R30, R31). -/
def StalledOnlyWhenFull (s : State) : Prop := ∀ q, (s.queue q).state = .stalledSlot → ∀ i, (s.slot i).isSome = true

/-- An ABORTING queue has a job in a slot, by its count of jobs (R40). -/
def AbortingHasJobs (s : State) : Prop := ∀ q, (s.queue q).state = .aborting → 0 < (s.queue q).jobs

/-- Every job of an ABORTING queue has entered ENDING, or is past it (R39, R41). -/
def AbortingJobsEnd (s : State) : Prop :=
  ∀ i j, s.slot i = some j → (s.queue j.queue).state = .aborting → j.isRunning = false

/-! ## Jobs and bursts -/

/-- The read has returned its eight words. -/
def hasReturned (r : ReadRequest) : Bool := r.words?.isSome

/-- A burst context in a condition its state allows: in LOCK_WAIT it has placed no request (R106); in READING no write
(R71); in WRITING its reads have all returned and it has not failed (R71, R82, R150). It has at most one external
source, one external destination, one external read of each kind and one external write (R69, R133). -/
def BurstSound (b : Burst) : Prop :=
  (b.state = .lockWait → b.reads = []) ∧
  (b.state ≠ .writing → b.writes = []) ∧
  (b.state = .writing → b.reads.all hasReturned ∧ b.failed = false) ∧
  b.sources.countP Place.isExt ≤ 1 ∧ b.dests.countP Place.isExt ≤ 1 ∧
  (∀ r, b.reads.countP (fun x => x.place.isExt && x.role = r) ≤ 1) ∧
  b.writes.countP (fun x => x.place.isExt) ≤ 1

/-- Bursts of a job in WRITING: those that an ENDING job still completes (R65). -/
def writingCount (j : Job) : Nat := j.bursts.countP fun b => b.state = .writing

/-- The status is one of the seven fault statuses. -/
def isFault (st : Status) : Bool :=
  match st with
  | .fault _ => true
  | .ok | .cancelled => false

/-- The bounds and counts of a job record: at most its limit of bursts in flight (R66); at most its count of bursts
issued, in ascending index (R66), the ones in flight with distinct indices (R61); every burst issued and ended is counted
while the job is ACTIVE or DRAINING, whose status is none (R69, R84), and at most every one after; a job with a fault has
a burst that is not counted and will not be (R84); a fault place exactly with a fault status (R15); and a saturation
count of at most 65535 (R96). -/
def JobBounded (j : Job) : Prop :=
  j.inFlight ≤ j.limit ∧ j.next ≤ j.command.count ∧ j.command.count ≤ 8192 ∧
  j.bursts.Pairwise (fun b c => b.index < c.index) ∧ (∀ b ∈ j.bursts, b.index < j.next ∧ BurstSound b) ∧
  j.done + j.inFlight ≤ j.next ∧
  (j.isRunning → j.status = none ∧ j.done + j.inFlight = j.next ∧ ∀ b ∈ j.bursts, b.failed = false) ∧
  (j.status.any isFault → j.done + writingCount j < j.command.count) ∧
  (j.place.isSome ↔ j.status.any isFault = true) ∧
  j.saturation ≤ Config.saturationLimit

/-- What each state of a slot means (section 4.2): ACTIVE has a burst left to issue; DRAINING has none, and one in
flight; ENDING has one in flight and an end status other than OK; POSTING has none in flight, and its settled status is
OK exactly when every burst was counted (R84, R85). -/
def JobPhased (j : Job) : Prop :=
  (j.state = .active → j.next < j.command.count) ∧
  (j.state = .draining → j.next = j.command.count ∧ 0 < j.inFlight) ∧
  (j.state = .ending → 0 < j.inFlight ∧ ∃ st, j.status = some st ∧ st ≠ .ok) ∧
  (j.state = .posting → j.bursts = [] ∧ ∃ st, j.status = some st ∧ (st = .ok ↔ j.done = j.command.count))

/-- Every job in a slot is sound. -/
def JobsSound (s : State) : Prop := ∀ i j, s.slot i = some j → JobBounded j ∧ JobPhased j

/-- At most the limit of bursts in flight, in every slot (R66). -/
def InFlightBounded (s : State) : Prop := ∀ i j, s.slot i = some j → j.inFlight ≤ j.limit

/-- The saturation count never passes 65535 (R96). -/
def SaturationBounded (s : State) : Prop := ∀ i j, s.slot i = some j → j.saturation ≤ Config.saturationLimit

/-- The mode and operator whose applications can clamp: ACCUM or MERGE under ADDS or ADDU (R97). -/
def canClamp (w : Work) : Bool :=
  match w with
  | .accum op _ _ _ | .merge op _ _ _ _ _ => op = .adds || op = .addu
  | .copy _ _ | .fill _ _ | .spread _ _ _ | .tabload _ _ _ => false

/-- The saturation count is other than 0 only in a job that can clamp (R97). -/
def SaturationExplained (s : State) : Prop :=
  ∀ i j, s.slot i = some j → j.saturation ≠ 0 → canClamp j.command.work = true

/-- Every job in a slot carries the parts of the command it was taken from, unused bits included, and its fields are
those that the parts give (R61, R185). -/
def CommandsCarried (s : State) : Prop := ∀ i j, s.slot i = some j → j.command.parts.job = some j.command

/-! ## The ends of bursts and jobs -/

/-- A burst that stays in flight when its job enters ENDING: in WRITING and not failed, or in READING with a read that
was sent and has not returned (R65, R81, R82). -/
def staysInFlight (b : Burst) : Bool :=
  (b.state = .writing && !b.failed) || (b.state = .reading && b.reads.any ReadRequest.isSent)

/-- The bursts still in flight once their job has entered ENDING: those that stay, a READING one without its waiting
reads (R65). -/
def burstsAtEnding (l : List Burst) : List Burst :=
  (l.filter staysInFlight).map fun b =>
    if b.state = .reading then { b with reads := b.reads.filter fun r => !r.isWaiting } else b

/-- The state once burst n has left the job in slot i, whose record is j: the burst's entry is released, and the job is
finished if it is DRAINING or ENDING with no burst left (R69, R84, R108). -/
def afterBurst (s : State) (i : SlotId) (j : Job) (n : Nat) : State :=
  let k := { j with bursts := j.bursts.filter fun c => c.index ≠ n }
  let u := (s.setSlot i (some k)).releaseEntry i n
  if k.bursts = [] ∧ (k.state = .draining ∨ k.state = .ending) then u.finishJob i k else u

/-- A burst one of whose reads has come back to no use: the read is gone (R65, R81). -/
def withoutRead (b : Burst) (r : ReadRequest) : Burst := { b with reads := b.reads.filter fun x => x ≠ r }

/-- A burst one of whose reads has failed: the read is gone, the reads still waiting are withdrawn, and the burst is
marked failed (R81). -/
def failedRead (b : Burst) (r : ReadRequest) : Burst :=
  { b with reads := b.reads.filter fun x => x ≠ r && !x.isWaiting, failed := true }

/-- The state once a burst that makes no combine has lost a read and is left as c: it ends uncounted unless another read
of it was sent and has not returned (R65, R81). -/
def afterDiscard (s : State) (i : SlotId) (j : Job) (c : Burst) : State :=
  if c.reads.any ReadRequest.isSent = true then s.setSlot i (some (j.putBurst c)) else afterBurst s i j c.index

/-- The status that the finish settles, by the table of R84. -/
def SettledAs (j : Job) (st : Status) : Prop :=
  (j.state = .draining ∧ st = .ok) ∨
  (j.state = .ending ∧
    ((∃ f, j.status = some (.fault f) ∧ st = .fault f) ∨
     (j.status = some .cancelled ∧ j.done < j.command.count ∧ st = .cancelled) ∨
     (j.status = some .cancelled ∧ j.done = j.command.count ∧ st = .ok)))

/-- The finish writes a record, by the second table of R84. -/
def RecordNeeded (r : Report) (st : Status) : Prop :=
  r = .always ∨ (r = .onFault ∧ st ≠ .ok) ∨ ∃ f, st = .fault f

/-! ## Faults as the queue and the slot show them -/

/-- What no fault and no cancel of a job changes: the commands waiting, the reset pin, the host port, the banks, the
segment table, the view, the mask, the threshold and the STRAY cause. -/
def ElsewhereKept (s t : State) : Prop :=
  t.pending = s.pending ∧ t.resetPin = s.resetPin ∧ t.host = s.host ∧ t.memory = s.memory ∧ t.segments = s.segments ∧
  t.completion.view = s.completion.view ∧ t.interrupts.mask = s.interrupts.mask ∧
  t.interrupts.threshold = s.interrupts.threshold ∧ t.interrupts.stray = s.interrupts.stray

/-- What a job's first fault leaves of its queue (R41): it is HALTED with its commands, sequence numbers and results; if
it was HALTED before it keeps its halt reason, and otherwise it halts with the fault, origin JOB and the job's sequence
number, and the HALT cause is set. Its count of jobs falls if the job leaves its slot. -/
def FaultTold (s t : State) (j : Job) (f : JobFault) : Prop :=
  (∃ n, t.queue j.queue =
    { s.queue j.queue with
      state := .halted
      halt := if (s.queue j.queue).state = .halted then (s.queue j.queue).halt
              else some { code := .job f, origin := .job, seq := j.seq }
      jobs := n }) ∧
  ((s.queue j.queue).state ≠ .halted → t.interrupts.halt = true) ∧ ElsewhereKept s t

/-- A job record without its burst contexts. -/
def Job.outline (j : Job) : Job := { j with bursts := [] }

/-- A job record once its first fault has put it in ENDING, from the burst contexts it then had (R64, R65). -/
def Job.faulted (j : Job) (f : PlacedFault) (l : List Burst) : Job :=
  { j with state := .ending, status := some (.fault f.fault), place := some f.place, bursts := burstsAtEnding l }

/-- What a job's first fault leaves once ENDING is applied to its bursts and before any finish (R41, R64, R65, R110): the
job's record; its queue told, with its count of jobs, and off the posting wait list if it halts now; no burst of the job
on the lock wait list. The other queues, the tags and the records are as they were, and of the other jobs only burst
contexts change (those granted a lock). -/
def FaultEntered (s u : State) (i : SlotId) (j : Job) (f : PlacedFault) (l : List Burst) : Prop :=
  u.slot i = some (Job.faulted j f l) ∧
  (∀ k, k ≠ i → (u.slot k).map Job.outline = (s.slot k).map Job.outline) ∧
  FaultTold s u j f.fault ∧ (u.queue j.queue).jobs = (s.queue j.queue).jobs ∧
  (∀ q, q ≠ j.queue → u.queue q = s.queue q) ∧ (∀ g, u.tag g = s.tag g) ∧ u.slotPointer = s.slotPointer ∧
  u.completion.fifo = s.completion.fifo ∧
  u.completion.waiters =
    (if (s.queue j.queue).state = .halted then s.completion.waiters
     else s.completion.waiters.filter fun p => p ≠ .queue j.queue) ∧
  ∀ w ∈ u.interlock.waiters, w.slot ≠ i

/-- A job's first fault as a whole (R64): ENDING is entered, and if that leaves no burst in flight the job finishes in
the same happening. The queue, which the finish tells, keeps what the fault told it. -/
def FirstFault (s t : State) (i : SlotId) (j : Job) (f : PlacedFault) (l : List Burst) : Prop :=
  FaultTold s t j f.fault ∧
  ∃ u, FaultEntered s u i j f l ∧ t = if burstsAtEnding l = [] then u.finishJob i (Job.faulted j f l) else u

/-! ## Cancels -/

/-- A job record once a cancel has put it in ENDING (R65, R83). -/
def Job.cancelled (j : Job) : Job :=
  { j with state := .ending, status := some .cancelled, bursts := burstsAtEnding j.bursts }

/-- What the cancel of one job leaves once ENDING is applied to its bursts and before any finish (R65, R83, R110): the
job's record, and no burst of the job on the lock wait list. The queues, the tags, the records, the interrupt causes and
the ports are as they were, and of the other jobs only burst contexts change (those granted a lock). -/
def CancelEntered (s u : State) (i : SlotId) (j : Job) : Prop :=
  u.slot i = some (Job.cancelled j) ∧
  (∀ k, k ≠ i → (u.slot k).map Job.outline = (s.slot k).map Job.outline) ∧
  (∀ q, u.queue q = s.queue q) ∧ (∀ g, u.tag g = s.tag g) ∧ u.slotPointer = s.slotPointer ∧
  u.completion = s.completion ∧ u.interrupts = s.interrupts ∧ u.ext = s.ext ∧ u.bankPointers = s.bankPointers ∧
  ElsewhereKept s u ∧ ∀ w ∈ u.interlock.waiters, w.slot ≠ i

/-! ## Interlock -/

/-- At most 16 entries, no two with the same key (R103). -/
def TableSound (l : Interlock) : Prop :=
  l.table.length ≤ Config.lockEntries ∧ l.table.Pairwise (fun d e => d.key ≠ e.key)

/-- Each waiter's key is held by some entry, or the table is full (R107). -/
def WaitersBlocked (l : Interlock) : Prop :=
  ∀ w ∈ l.waiters, l.held w.key = true ∨ l.table.length = Config.lockEntries

/-- The two relations of the interlock (R103, R107). -/
def InterlockSound (s : State) : Prop := TableSound s.interlock ∧ WaitersBlocked s.interlock

/-- The burst is one of a job in a slot. -/
def burstIn (s : State) (i : SlotId) (j : Job) (b : Burst) : Prop := s.slot i = some j ∧ b ∈ j.bursts

/-- A read-modify-write burst in READING or WRITING holds an entry for its destination (R69, R75, R103, R104); every
burst on the wait list is a burst in LOCK_WAIT of a read-modify-write job that is ACTIVE or DRAINING, with its
destination as its key (R107). -/
def LocksHeld (s : State) : Prop :=
  (∀ i j b, burstIn s i j b → j.command.work.readsOldDestination = true → b.state ≠ .lockWait →
    ∃ e ∈ s.interlock.table, e.slot = i ∧ e.burst = b.index ∧ b.dests = [e.key]) ∧
  (∀ w ∈ s.interlock.waiters, ∃ j b, burstIn s w.slot j b ∧ j.isRunning = true ∧
    j.command.work.readsOldDestination = true ∧ b.index = w.burst ∧ b.state = .lockWait ∧ b.dests = [w.key])

/-- The lists of the interlock against the bursts: no burst is twice on the wait list, every entry belongs to a
read-modify-write burst past LOCK_WAIT with the entry's key as its destination, and every burst in LOCK_WAIT is on the
wait list (R103, R107). -/
def LocksListed (s : State) : Prop :=
  s.interlock.waiters.Nodup ∧
  (∀ e ∈ s.interlock.table, ∃ j b, burstIn s e.slot j b ∧ j.command.work.readsOldDestination = true ∧
    b.index = e.burst ∧ b.state ≠ .lockWait ∧ b.dests = [e.key]) ∧
  ∀ i j b, burstIn s i j b → b.state = .lockWait → ∃ w ∈ s.interlock.waiters, w.slot = i ∧ w.burst = b.index

/-- No two read-modify-write bursts past LOCK_WAIT have the same destination burst (R103, R109). -/
def DestinationsExclusive (s : State) : Prop :=
  ∀ i j b k l c, burstIn s i j b → burstIn s k l c →
    j.command.work.readsOldDestination = true → l.command.work.readsOldDestination = true →
    b.state ≠ .lockWait → c.state ≠ .lockWait → b.dests = c.dests → i = k ∧ b.index = c.index

/-! ## External port -/

/-- At most one offer stands (R131). -/
def OneOffer (s : State) : Prop :=
  ∀ d e, (s.reqId d).isOffered = true → (s.reqId e).isOffered = true → d = e

/-- A timer runs only for an accepted request (R137, R139). -/
def TimersAccepted (s : State) : Prop := ∀ d b, s.reqId d = .busy b → b.timer.isSome = true → b.accepted = true

/-- The burst has sent the request that a BUSY ID carries (R133). -/
def carries (b : BusyId) (c : Burst) : Bool :=
  match b.role with
  | .read role => c.reads.any fun r => r.isSent && r.role = role && r.place = .ext b.address
  | .write => c.writes.any fun w => w.stage = .sent && w.place = .ext b.address

/-- "Every BUSY ID belongs to exactly one burst in flight" (R133): the burst its slot and burst index name, which has
sent the request it carries; no two BUSY IDs carry the same request; and a request that has been sent has a BUSY ID. -/
def IdsOwned (s : State) : Prop :=
  (∀ d b, s.reqId d = .busy b → ∃ j c, burstIn s b.slot j c ∧ c.index = b.burst ∧ carries b c = true) ∧
  (∀ d e b c, s.reqId d = .busy b → s.reqId e = .busy c → b.slot = c.slot → b.burst = c.burst → b.role = c.role → d = e) ∧
  (∀ i j c, burstIn s i j c →
    (∀ r ∈ c.reads, r.isSent = true → ∃ d b, s.reqId d = .busy b ∧ b.slot = i ∧ b.burst = c.index ∧
      b.role = .read r.role ∧ r.place = .ext b.address) ∧
    (∀ w ∈ c.writes, w.stage = .sent → ∃ d b, s.reqId d = .busy b ∧ b.slot = i ∧ b.burst = c.index ∧
      b.role = .write ∧ w.place = .ext b.address))

/-- A burst whose request of a BUSY ID has failed: it is marked failed; a read is outstanding no more, and with it the
reads still waiting are withdrawn (R81, R82). -/
def failedRequest (o : BusyId) (b : Burst) : Burst :=
  match o.role with
  | .read role =>
    { b with
      reads := b.reads.filter fun r => !(r.isSent && r.role = role && r.place = .ext o.address) && !r.isWaiting
      failed := true }
  | .write => { b with failed := true }

/-! ## Banks -/

/-- The bank contents are in their canonical form. -/
def MemorySound (s : State) : Prop := s.memory.wf

/-! ## Completion and interrupts -/

/-- A poster that can post: a slot in POSTING, or a queue in STALLED(ROOM) with a command at its head (R165). -/
def canPost (s : State) : Poster → Bool
  | .slot i => (s.slot i).any fun j => j.state = .posting
  | .queue q => (s.queue q).state = .stalledRoom && !(s.queue q).commands.isEmpty

/-- At most 64 records (R163); the posting wait list is not empty only while the FIFO holds 64, a poster appears at most
once, and every poster on it can post (R165). -/
def FifoSound (s : State) : Prop :=
  s.completion.fifo.length ≤ Config.fifoDepth ∧
  (s.completion.waiters ≠ [] → s.completion.fifo.length = Config.fifoDepth) ∧
  s.completion.waiters.Nodup ∧ ∀ p ∈ s.completion.waiters, canPost s p = true

/-- A job's record has a fault place exactly with a fault status (R15, R161), at most 8192 bursts done and a saturation
count of at most 65535; a NOTE's record has nothing to bound. -/
def RecordSound (r : Record) : Prop :=
  match r with
  | .job _ status _ _ _ done saturation place =>
      (place.isSome ↔ isFault status = true) ∧ done ≤ 8192 ∧ saturation ≤ Config.saturationLimit
  | .note _ _ _ => True

/-- Every record in the FIFO and in the view is sound. -/
def RecordsSound (s : State) : Prop :=
  (∀ r ∈ s.completion.fifo, RecordSound r) ∧ ∀ r, s.completion.view = some r → RecordSound r

/-- The threshold is 1 to 64 (R173). -/
def ThresholdSound (s : State) : Prop := 1 ≤ s.interrupts.threshold ∧ s.interrupts.threshold ≤ 64

/-! ## Register window -/

/-- The addresses of the global registers (R179, the second table). -/
def globalAddresses : List Nat :=
  [0x000, 0x004, 0x008, 0x010, 0x014, 0x018, 0x020, 0x024, 0x028, 0x02C, 0x030, 0x040, 0x044, 0x048, 0x04C]

/-- The offsets of the registers within a queue block (R179, the third table). -/
def queueOffsets : List Nat := [0x00, 0x04, 0x08, 0x0C, 0x10, 0x14, 0x18, 0x1C, 0x20]

/-- The map names a register at a word-aligned address: a global register, any of TAG0 to TAG31, a register of a queue
block, or any of SEG0 to SEG511 (R179). -/
def NamesRegister (a : Nat) : Prop :=
  a ∈ globalAddresses ∨ (0x100 ≤ a ∧ a < 0x180) ∨
    (0x200 ≤ a ∧ a < 0x400 ∧ (a - 0x200) % 0x80 ∈ queueOffsets) ∨ 0x800 ≤ a

/-- An access at an address reaches a register, its two lowest bits taken as 0 (R177). -/
def InMap (addr : BitVec 12) : Prop := NamesRegister (addr.toNat / 4 * 4)

/-! ## Reset pin -/

/-- While the reset pin is asserted the machine is in the condition the reset left, every block of it: the queues,
staging and slot arbiter (R21, R31, R44), the tags (R51), the slots (R88), the interlock (R114), the segment table (R116),
the external port with XSIZE, XTIMEOUT and its pointer (R148), the bank ports and the aperture (R160), completion and
interrupts (R175). The bank contents are what they were (R9), and `readData` and the commands waiting are the model's. -/
def ResetHeld (s : State) : Prop :=
  s.resetPin = true →
    s = { State.reset with
      pending := s.pending, resetPin := true, memory := s.memory
      host := { HostPort.reset with readData := s.host.readData } }

end Sys2Proof.Safety
end

