-- ==== Sys2Proof/Certificates/Slice0/Obligations.lean ====
section
/-!
DEFINITION. The statements for the provers, family by family. Each docstring names the rules of spec/ that it formalises;
hypotheses such as "the bus is free" are `HostPortFree` (R157, R177).
-/

open Sys2Proof Sys2Proof.Machine Sys2Proof.Safety

/-! ## Every command -/

/-- The command at the front of the queue is taken off and carried out; on an empty queue the block idles, which is the
model's choice (log entry 2). -/
def Obligations.StepTakesFrontCommand : Prop :=
  (∀ (c : Instr) (rest : List Instr) (s : State), step (s.withPending (c :: rest)) = exec c (s.withPending rest)) ∧
  ∀ s : State, step (s.withPending []) = .next (s.withPending [])

/-- No command stops the block, in any state: each answers a next state and leaves the queue of commands as it was. That
there is no stop is read from the rules (log entry 23); that a command whose happening cannot come about answers a next
state too, the one it found, is the model's choice (log entry 1). -/
def Obligations.EveryCommandAnswersNext : Prop :=
  ∀ (c : Instr) (s : State), ∃ t, exec c s = .next t ∧ t.pending = s.pending

/-! ## Command queues (chapter 02) -/

/-- PUSH, the table of R22: nothing but the queue changes, and of the queue only what its row says. -/
def Obligations.PushAppendsOrRefuses : Prop :=
  ∀ (q : QueueId) (s : State), HostPortFree s →
    exec (.push q) s = .next (s.setQueue q
      (if (s.queue q).state = .aborting then { s.queue q with pushResult := .aborting }
       else if (s.queue q).commands.length < 32 then
         { s.queue q with
           commands := (s.queue q).commands ++ [{ parts := s.host.staging[q], seq := (s.queue q).nextSeq }]
           nextSeq := (s.queue q).nextSeq + 1
           pushResult := .accepted }
       else { s.queue q with pushResult := .full }))

/-- START and STOP in every state (R34, R35, R36): START only sets the state and the control result; STOP puts a RUNNING,
STALLED or FENCED queue in STOPPED with its commands kept and takes it off the posting wait list, and otherwise changes
only the control result. -/
def Obligations.StartAndStopResult : Prop :=
  ∀ (q : QueueId) (s : State), HostPortFree s →
    exec (.start q) s = .next (s.setQueue q
      { s.queue q with
        state := if (s.queue q).state = .stopped then .running else (s.queue q).state
        controlResult :=
          if (s.queue q).state = .halted ∨ (s.queue q).state = .aborting then .refused else .accepted }) ∧
    ((s.queue q).state ≠ .stopped → (s.queue q).state ≠ .halted → (s.queue q).state ≠ .aborting →
      exec (.stop q) s = .next
        ((s.setQueue q { s.queue q with state := .stopped, controlResult := .accepted }).setCompletion
          { s.completion with waiters := s.completion.waiters.filter fun p => p ≠ .queue q })) ∧
    ((s.queue q).state = .stopped → exec (.stop q) s = .next (s.setQueue q { s.queue q with controlResult := .accepted })) ∧
    ((s.queue q).state = .halted ∨ (s.queue q).state = .aborting →
      exec (.stop q) s = .next (s.setQueue q { s.queue q with controlResult := .refused }))

/-- RESUME and SKIP (R34, R37, R38): in HALTED the halt reason is cleared and the queue is RUNNING, SKIP discarding the
head; in any other state both are refused. CONTROL_CODE_REFUSED, codes 0, 6 and 7 whatever bits 31:3 hold, changes
nothing but the control result (R34, R183). -/
def Obligations.ResumeSkipAndRefusedCodes : Prop :=
  ∀ (q : QueueId) (s : State), HostPortFree s →
    ((s.queue q).state = .halted →
      exec (.resume q) s = .next (s.setQueue q
        { s.queue q with state := .running, halt := none, controlResult := .accepted }) ∧
      exec (.skip q) s = .next (s.setQueue q
        { s.queue q with
          commands := (s.queue q).commands.tail, state := .running, halt := none, controlResult := .accepted })) ∧
    ((s.queue q).state ≠ .halted →
      exec (.resume q) s = .next (s.setQueue q { s.queue q with controlResult := .refused }) ∧
      exec (.skip q) s = .next (s.setQueue q { s.queue q with controlResult := .refused })) ∧
    ∀ v : Half, v.toNat % 8 = 0 ∨ 6 ≤ v.toNat % 8 →
      exec (.controlCodeRefused q v) s = .next (s.setQueue q { s.queue q with controlResult := .refused })

/-- ABORT completes in every state in which the host port takes an access (R34, R39, R40, R83). Outside ABORTING every
command is discarded, the halt reason cleared, the lists left, and the new state follows from the count of jobs; the
banks, the segment table, the external port and the host port are as they were. Where the job records are sound, each
ACTIVE or DRAINING job of the queue is cancelled: with a burst that stays in flight it is in ENDING with status CANCELLED
and no place; with none it finishes as CANCELLED, and is in POSTING if it is still in its slot. The queue's ENDING and
POSTING jobs and every other queue's jobs keep all but burst contexts (a lock may be granted), and the records written are
of this queue's cancelled jobs. The jobs are taken one at a time in ascending slot number: each that is ACTIVE or DRAINING
enters ENDING, and with no burst left finishes at once by `State.finishJob`, whose record, tag release with poison, and
grant LastWriteFinishesJob states. In ABORTING it is accepted and changes nothing more. -/
def Obligations.AbortDiscardsAndCancels : Prop :=
  ∀ (q : QueueId) (s : State), HostPortFree s →
    ((s.queue q).state ≠ .aborting →
      ∃ t, exec (.abort q) s = .next t ∧
        (t.queue q).commands = [] ∧ (t.queue q).halt = none ∧ (t.queue q).nextSeq = (s.queue q).nextSeq ∧
        (t.queue q).headSeq = (s.queue q).nextSeq ∧ (t.queue q).pushResult = (s.queue q).pushResult ∧
        (t.queue q).controlResult = .accepted ∧
        (t.queue q).state = (if (t.queue q).jobs = 0 then .stopped else .aborting) ∧
        (∀ i j, t.slot i = some j → j.queue = q → j.isRunning = false) ∧
        Poster.queue q ∉ t.completion.waiters ∧
        ElsewhereKept s t ∧ t.ext = s.ext ∧ t.bankPointers = s.bankPointers ∧
        (JobsSound s →
          (∀ i j, s.slot i = some j → j.queue = q → j.isRunning = true →
            (burstsAtEnding j.bursts ≠ [] →
              t.slot i = some
                { j with
                  state := .ending, status := some .cancelled, place := none, bursts := burstsAtEnding j.bursts }) ∧
            (burstsAtEnding j.bursts = [] → ∀ k, t.slot i = some k → k.queue = q →
              k = { j with state := .posting, status := some .cancelled, place := none, bursts := [] })) ∧
          (∀ i j, s.slot i = some j → (j.queue = q → j.isRunning = false) →
            (t.slot i).map Job.outline = some (Job.outline j)) ∧
          ∃ records, t.completion.fifo = s.completion.fifo ++ records ∧
            ∀ r ∈ records, ∃ kind seq tag done saturation, r = .job kind .cancelled q seq tag done saturation none)) ∧
    ((s.queue q).state ≠ .aborting →
      exec (.abort q) s = .next
        (((List.finRange 8).foldl (State.cancelJob q)
          ((s.setQueue q
              { s.queue q with
                state := .stopped, commands := [], halt := none, controlResult := .accepted }).setCompletion
            { s.completion with waiters := s.completion.waiters.filter fun p => p ≠ .queue q })).modQueue q
          fun x : Queue => if x.jobs = 0 then x else { x with state := .aborting })) ∧
    (∀ (v : State) (i : SlotId),
      ((∀ j, v.slot i = some j → j.queue = q → j.isRunning = false) → State.cancelJob q v i = v) ∧
      ∀ j, v.slot i = some j → j.queue = q → j.isRunning = true → j.bursts.Pairwise (fun b c => b.index < c.index) →
        ∃ u, CancelEntered v u i j ∧
          State.cancelJob q v i = if burstsAtEnding j.bursts = [] then u.finishJob i (Job.cancelled j) else u) ∧
    ((s.queue q).state = .aborting →
      exec (.abort q) s = .next (s.setQueue q { s.queue q with controlResult := .accepted }))

/-- A command is taken only from a RUNNING queue that holds one (R25); otherwise there is no take, and the command TAKE
changes nothing (the model's choice, log entry 1). A decode fault halts the queue with the head kept and sets the HALT
cause (R29). -/
def Obligations.TakeRefusedOrHalted : Prop :=
  ∀ (q : QueueId) (s : State),
    ((s.queue q).state ≠ .running ∨ (s.queue q).commands = [] → exec (.take q) s = .next s) ∧
    ∀ c cs e, (s.queue q).state = .running → (s.queue q).commands = c :: cs →
      c.parts.decode s.ext.xsize = .error e → Poster.queue q ∉ s.completion.waiters →
      exec (.take q) s = .next
        ((s.setQueue q
          { s.queue q with state := .halted, halt := some { code := e, origin := .decode, seq := c.seq } }).setInterrupts
          { s.interrupts with halt := true })

/-- The take of a decoded MOVE or TABLOAD (R30, R46, R61, R62): it enters the lowest-numbered FREE slot, or the queue is
STALLED(SLOT) when none is FREE. -/
def Obligations.TakeJobEntersOrStalls : Prop :=
  ∀ (q : QueueId) (s : State) (c : HeldCommand) (cs : List HeldCommand) (j : JobCommand),
    (s.queue q).state = .running → (s.queue q).commands = c :: cs → c.parts.decode s.ext.xsize = .ok (.job j) →
    (∀ i, s.slot i = none → (∀ k, k < i → (s.slot k).isSome = true) →
      exec (.take q) s = .next
        (let u := (s.setSlot i (some
            { queue := q, seq := c.seq, command := j, serialized := j.serialized, state := .active, next := 0
              done := 0, saturation := 0, status := none, place := none
              cursor := j.work.walkStart.map fun m =>
                { index := m, stopHeld := false, segment := 0, position := 0, left := 0 }
              bursts := [] })).setQueue q { s.queue q with commands := cs, jobs := (s.queue q).jobs + 1 }
         match j.tag with
         | none => u
         | some t => u.setTag t { s.tag t with count := (s.tag t).count + 1 })) ∧
    ((∀ i, (s.slot i).isSome = true) →
      exec (.take q) s = .next (s.setQueue q { s.queue q with state := .stalledSlot }))

/-- The take of a WAIT and its three outcomes (R32, R52, R53, R55). -/
def Obligations.TakeWaitOutcomes : Prop :=
  ∀ (q : QueueId) (s : State) (c : HeldCommand) (cs : List HeldCommand),
    (s.queue q).state = .running → (s.queue q).commands = c :: cs → c.parts.kind = 3 →
    ((∀ t : TagId, c.parts.waitMask.getLsbD t = true → (s.tag t).count = 0) →
      ¬(c.parts.flag = true ∧ ∃ t : TagId, c.parts.waitMask.getLsbD t = true ∧ (s.tag t).poison = true) →
      exec (.take q) s = .next (s.setQueue q { s.queue q with commands := cs })) ∧
    ((∀ t : TagId, c.parts.waitMask.getLsbD t = true → (s.tag t).count = 0) →
      c.parts.flag = true → (∃ t : TagId, c.parts.waitMask.getLsbD t = true ∧ (s.tag t).poison = true) →
      Poster.queue q ∉ s.completion.waiters →
      exec (.take q) s = .next
        ((s.setQueue q
          { s.queue q with
            state := .halted, halt := some { code := .fencePoisoned, origin := .fence, seq := c.seq } }).setInterrupts
          { s.interrupts with halt := true })) ∧
    (¬(∀ t : TagId, c.parts.waitMask.getLsbD t = true → (s.tag t).count = 0) →
      exec (.take q) s = .next (s.setQueue q { s.queue q with state := .fenced }))

/-- The take of a NOTE (R20, R33, R161, R164, R171): it posts its record and leaves, or its queue is STALLED(ROOM) at the
end of the posting wait list. -/
def Obligations.TakeNotePostsOrStalls : Prop :=
  ∀ (q : QueueId) (s : State) (c : HeldCommand) (cs : List HeldCommand),
    (s.queue q).state = .running → (s.queue q).commands = c :: cs → c.parts.kind = 4 →
    (s.completion.fifo.length < 64 → s.completion.waiters = [] →
      exec (.take q) s = .next
        (((s.setCompletion
            { s.completion with fifo := s.completion.fifo ++ [.note q c.seq (c.parts[1].extractLsb' 0 16)] }).setQueue q
            { s.queue q with commands := cs }).setInterrupts
          { s.interrupts with note := s.interrupts.note || c.parts[0].getLsbD 16 })) ∧
    (64 ≤ s.completion.fifo.length ∨ s.completion.waiters ≠ [] →
      exec (.take q) s = .next
        ((s.setQueue q { s.queue q with state := .stalledRoom }).setCompletion
          { s.completion with waiters := s.completion.waiters ++ [.queue q] }))

/-! ## Decode (R26 to R28) and serialization (R79) -/

/-- The form check fails, with BAD_FORM, exactly on a breach of R27 for a MOVE and of R28 for a TABLOAD. -/
def Obligations.FormRules : Prop :=
  ∀ (x : XSize) (p : Parts),
    (p.kind = 1 → (p.decode x = .error .badForm ↔ ¬MoveFormLegal p)) ∧
    (p.kind = 2 → (p.decode x = .error .badForm ↔ ¬TabloadFormLegal p))

/-- The four checks in their order (R26): an illegal kind is BAD_KIND; after a legal form, a MOVE of count 0 or more than
8192 is BAD_LENGTH, then a direct EXT side beyond S is EXT_RANGE; every other command is decoded. What it decodes to is
read from the bits of its parts (R185): the work of a MOVE mode by mode, the work of a TABLOAD, the count, the priority,
the report policy, the tag, and the parts themselves; a WAIT's mask and a NOTE's mark with their flags. -/
def Obligations.DecodeChecksInOrder : Prop :=
  ∀ (x : XSize) (p : Parts),
    (p.kind ≠ 1 → p.kind ≠ 2 → p.kind ≠ 3 → p.kind ≠ 4 → p.decode x = .error .badKind) ∧
    (p.kind = 1 → MoveFormLegal p →
      (p.moveCount = 0 ∨ 8192 < p.moveCount → p.decode x = .error .badLength) ∧
      (1 ≤ p.moveCount → p.moveCount ≤ 8192 →
        ((p.mode ≠ 1 ∧ BeyondExternal x p.moveCount p[1]) ∨ BeyondExternal x p.moveCount p[2] →
          p.decode x = .error (.job .extRange)) ∧
        (¬((p.mode ≠ 1 ∧ BeyondExternal x p.moveCount p[1]) ∨ BeyondExternal x p.moveCount p[2]) →
          ∃ j, p.decode x = .ok (.job j) ∧ j.count = (p[3].extractLsb' 0 14).toNat ∧ ReadsHeader p j ∧
            ReadsMove p j.work))) ∧
    (p.kind = 2 → TabloadFormLegal p →
      ∃ j, p.decode x = .ok (.job j) ∧ j.count = (p[2].extractLsb' 16 10).toNat / 16 ∧ ReadsHeader p j ∧
        ReadsTabload p j.work) ∧
    (p.kind = 3 → p.decode x = .ok (.wait p[1] (p[0].getLsbD 16))) ∧
    (p.kind = 4 → p.decode x = .ok (.note (p[1].extractLsb' 0 16) (p[0].getLsbD 16)))

/-- A job is serialized exactly when a source range and a destination range of it overlap with a non-zero offset, each
selected bank a range of its own (R5, R14, R79). -/
def Obligations.SerializedExactlyOnOverlap : Prop :=
  ∀ j : JobCommand, 1 ≤ j.count →
    (∀ src dst, j.work = .copy src dst → (j.serialized = true ↔ SidesOverlap j.count src dst)) ∧
    (∀ op w src dst, j.work = .accum op w src dst → (j.serialized = true ↔ SidesOverlap j.count src dst)) ∧
    (∀ op w acc banks a dst, j.work = .merge op w acc banks a dst →
      (j.serialized = true ↔ ∃ b ∈ banks, SidesOverlap j.count (.bank b a) dst)) ∧
    (∀ src banks a, j.work = .spread src banks a →
      (j.serialized = true ↔ ∃ b ∈ banks, SidesOverlap j.count src (.bank b a))) ∧
    (∀ pattern dst, j.work = .fill pattern dst → j.serialized = false) ∧
    (∀ b a start, j.work = .tabload b a start → j.serialized = false)

/-! ## Tags and fences (chapter 03) -/

/-- CLEAR (R49, R182): the poison is cleared exactly when bit 31 is set and the count is 0; nothing else changes. -/
def Obligations.ClearResult : Prop :=
  ∀ (t : TagId) (v : Half) (s : State), HostPortFree s →
    exec (.clear t v) s = .next
      (if v.getLsbD 31 = true ∧ (s.tag t).count = 0 then s.setTag t { s.tag t with poison := false } else s)

/-- A tagged job leaves its slot (R47, R48, R54): the count falls and a bad ending poisons; where the count was 1, every
FENCED queue whose WAIT names the tag is evaluated with the new counts and poison, each for itself, and every other queue
is as it was. -/
def Obligations.ReleaseTagDrains : Prop :=
  ∀ (s : State) (t : TagId) (bad : Bool) (u : State),
    u = s.setTag t { count := (s.tag t).count - 1, poison := (s.tag t).poison || bad } →
    ((s.tag t).count ≠ 1 → s.releaseTag t bad = u) ∧
    ((s.tag t).count = 1 →
      (∀ x, (s.releaseTag t bad).tag x = u.tag x) ∧
      (∀ q, ((s.queue q).state ≠ .fenced ∨
          ∀ c ∈ (s.queue q).commands.head?, c.parts.waitMask.getLsbD t = false) →
        (s.releaseTag t bad).queue q = s.queue q) ∧
      ∀ q c cs, (s.queue q).state = .fenced → (s.queue q).commands = c :: cs → c.parts.waitMask.getLsbD t = true →
        (¬(∀ x : TagId, c.parts.waitMask.getLsbD x = true → (u.tag x).count = 0) →
          (s.releaseTag t bad).queue q = s.queue q) ∧
        ((∀ x : TagId, c.parts.waitMask.getLsbD x = true → (u.tag x).count = 0) →
          ((c.parts.flag = true ∧ ∃ x : TagId, c.parts.waitMask.getLsbD x = true ∧ (u.tag x).poison = true) →
            (s.releaseTag t bad).queue q =
              { s.queue q with
                state := .halted, halt := some { code := .fencePoisoned, origin := .fence, seq := c.seq } } ∧
            (s.releaseTag t bad).interrupts.halt = true) ∧
          (¬(c.parts.flag = true ∧ ∃ x : TagId, c.parts.waitMask.getLsbD x = true ∧ (u.tag x).poison = true) →
            (s.releaseTag t bad).queue q = { s.queue q with state := .running, commands := cs })))

/-- When a take lets a WAIT leave its queue, no slot holds a job that carries a tag of its mask (R45, R52, R59): the counts
are those of the slots. -/
def Obligations.SatisfiedFenceLeavesNoJob : Prop :=
  ∀ (q : QueueId) (s t : State) (c : HeldCommand) (cs : List HeldCommand), TagsCounted s →
    (s.queue q).state = .running → (s.queue q).commands = c :: cs → c.parts.kind = 3 →
    exec (.take q) s = .next t → (t.queue q).commands = cs →
    ∀ i j g, s.slot i = some j → j.command.tag = some g → c.parts.waitMask.getLsbD g = false

/-! ## Slots (R31) -/

/-- A freed slot goes to the first queue in STALLED(SLOT) in the cyclic order that begins just after the pointer; its head
enters the slot undecoded, its count of jobs and its tag's count rise, it is RUNNING, and the pointer names it. With no
queue waiting nothing changes (R31). -/
def Obligations.SlotGrantRoundRobin : Prop :=
  ∀ (s : State) (i : SlotId),
    ((∀ q, (s.queue q).state ≠ .stalledSlot) → s.grantSlot i = s) ∧
    ∀ (n : Fin 4) (c : HeldCommand) (cs : List HeldCommand) (j : JobCommand),
      (∀ m, m < n → (s.queue (s.slotPointer + 1 + m)).state ≠ .stalledSlot) →
      (s.queue (s.slotPointer + 1 + n)).state = .stalledSlot →
      (s.queue (s.slotPointer + 1 + n)).commands = c :: cs → c.parts.job = some j →
      ∃ t, s.grantSlot i = t ∧ t.slotPointer = s.slotPointer + 1 + n ∧
        t.slot i = some (Job.enter (s.slotPointer + 1 + n) c.seq j) ∧ (∀ k, k ≠ i → t.slot k = s.slot k) ∧
        t.queue (s.slotPointer + 1 + n) =
          { s.queue (s.slotPointer + 1 + n) with
            state := .running, commands := cs, jobs := (s.queue (s.slotPointer + 1 + n)).jobs + 1 } ∧
        (∀ r, r ≠ s.slotPointer + 1 + n → t.queue r = s.queue r) ∧
        (∀ g, t.tag g =
          if j.tag = some g then { s.tag g with count := (s.tag g).count + 1 } else s.tag g)

/-! ## Burst issue, addresses and the walk (R66, R67, R106, R122) -/

/-- BURST_ISSUE of a burst whose addresses resolve (R63, R66, R67, R74 to R76, R105, R106): the context it creates, its
first state and its requests, and the interlock request of a read-modify-write burst. -/
def Obligations.BurstIssueResult : Prop :=
  ∀ (i : SlotId) (s : State) (j : Job) (src dst : List Place) (cur : Option Cursor) (b : Burst) (put : Burst → Job),
    s.slot i = some j → j.state = .active → j.next < j.command.count → j.inFlight < j.limit →
    resolveBurst s.ext.xsize s.segments j.next j.command.work j.cursor = (.ok (src, dst), cur) →
    b = { index := j.next, state := .reading, sources := src, dests := dst
          reads := src.map fun p => { role := .source, place := p, stage := .waiting }
          writes := [], failed := false } →
    (∀ c, put c =
      { j with cursor := cur, bursts := j.bursts ++ [c], next := j.next + 1
               state := if j.next + 1 = j.command.count then .draining else .active }) →
    (∀ pattern d, j.command.work = .fill pattern d →
      exec (.burstIssue i) s = .next (s.setSlot i (some (put
        { b with state := .writing, reads := []
                 writes := dst.map fun p =>
                   { place := p, stage := .waiting, words := mkBurst fun _ => pattern ++ pattern } })))) ∧
    ((∀ pattern d, j.command.work ≠ .fill pattern d) → j.command.work.readsOldDestination = false →
      exec (.burstIssue i) s = .next (s.setSlot i (some (put b)))) ∧
    (j.command.work.readsOldDestination = true → ∀ key, dst = [key] →
      ((∀ e ∈ s.interlock.table, e.key ≠ key) → s.interlock.table.length < 16 →
        exec (.burstIssue i) s = .next
          ((s.setSlot i (some (put
            { b with reads := b.reads ++ [{ role := .oldDestination, place := key, stage := .waiting }] }))).setInterlock
            { s.interlock with table := s.interlock.table ++ [{ key := key, slot := i, burst := j.next }] })) ∧
      ((∃ e ∈ s.interlock.table, e.key = key) ∨ 16 ≤ s.interlock.table.length →
        exec (.burstIssue i) s = .next
          ((s.setSlot i (some (put { b with state := .lockWait, reads := [] }))).setInterlock
            { s.interlock with waiters := s.interlock.waiters ++ [{ key := key, slot := i, burst := j.next }] })))

/-- BURST_ISSUE that fails to resolve (R12, R41, R64, R65, R68): nothing is issued, and the failure is the job's first
fault: the queue is told, the job is in ENDING with the fault and its place and the bursts that stay in flight, and with
none left it finishes in the same happening. -/
def Obligations.IssueFailureIsFirstFault : Prop :=
  ∀ (i : SlotId) (s : State) (j : Job) (f : PlacedFault) (cur : Option Cursor),
    s.slot i = some j → j.state = .active → j.next < j.command.count → j.inFlight < j.limit →
    resolveBurst s.ext.xsize s.segments j.next j.command.work j.cursor = (.error f, cur) →
    (s.queue j.queue).state ≠ .aborting → j.bursts.Pairwise (fun b c => b.index < c.index) →
    ∃ t, exec (.burstIssue i) s = .next t ∧ t.ext = s.ext ∧ t.bankPointers = s.bankPointers ∧
      FirstFault s t i { j with cursor := cur } f j.bursts

/-- The addresses of a burst at its index i (R3, R4, R12, R13, R67, R68, R121). A BANK side wraps modulo 1024; a direct
EXT side does not wrap, and at or beyond S fails with EXT_RANGE at word 0 of the burst; an EXTSEG side takes the burst
that the walk gives from the job's cursor, which begins at the side's start index modulo 512. A burst resolves its source
side first, and its destination side only if the source did not fail. A MERGE source and a SPREAD destination give the
same burst of each of their banks in the order of the bank list, which decode makes ascending (R4; DecodeChecksInOrder);
a TABLOAD has its one bank for a source and no destination, and a FILL has no source. -/
def Obligations.SideAddressAtIndex : Prop :=
  ∀ (x : XSize) (table : Vector SegEntry 512) (i : Nat) (a : BitVec 22) (cur : Option Cursor),
    (∀ b, ∃ k : BankBurst, k.val = (a.toNat + i) % 1024 ∧
      resolveSide x table i (.bank b a) cur = (.ok (.bank b k), cur)) ∧
    (a.toNat + i < x.bursts → resolveSide x table i (.ext a) cur = (.ok (.ext (a.toNat + i)), cur)) ∧
    (x.bursts ≤ a.toNat + i →
      resolveSide x table i (.ext a) cur =
        (.error { fault := .extRange, place := .ext (8 * (a.toNat + i)) }, cur)) ∧
    (∀ c n d, walkBurst x table c = (.ok n, d) → resolveSide x table i (.extseg a) (some c) = (.ok (.ext n), some d)) ∧
    (∀ c f d, walkBurst x table c = (.error f, d) → resolveSide x table i (.extseg a) (some c) = (.error f, some d)) ∧
    (∃ m : SegIndex, m.val = a.toNat % 512 ∧ ∀ side op w banks e acc,
      (Work.copy (.extseg a) side).walkStart = some m ∧ (Work.accum op w (.extseg a) side).walkStart = some m ∧
      (Work.spread (.extseg a) banks e).walkStart = some m ∧ (Work.fill 0 (.extseg a)).walkStart = some m ∧
      (Work.merge op w acc banks e (.extseg a)).walkStart = some m ∧
      (side.isExtseg = false →
        (Work.copy side (.extseg a)).walkStart = some m ∧
        (Work.accum op w side (.extseg a)).walkStart = some m)) ∧
    (∀ src dst op w work, work = Work.copy src dst ∨ work = Work.accum op w src dst →
      (∀ p c q d, resolveSide x table i src cur = (.ok p, c) → resolveSide x table i dst c = (.ok q, d) →
        resolveBurst x table i work cur = (.ok ([p], [q]), d)) ∧
      (∀ f c, resolveSide x table i src cur = (.error f, c) → resolveBurst x table i work cur = (.error f, c)) ∧
      (∀ p c f d, resolveSide x table i src cur = (.ok p, c) → resolveSide x table i dst c = (.error f, d) →
        resolveBurst x table i work cur = (.error f, d))) ∧
    ∃ k : BankBurst, k.val = (a.toNat + i) % 1024 ∧
      (∀ op w acc banks dst work, work = Work.merge op w acc banks a dst →
        (∀ q d, resolveSide x table i dst cur = (.ok q, d) →
          resolveBurst x table i work cur = (.ok (banks.map fun b => .bank b k, [q]), d)) ∧
        (∀ f d, resolveSide x table i dst cur = (.error f, d) → resolveBurst x table i work cur = (.error f, d))) ∧
      (∀ src banks work, work = Work.spread src banks a →
        (∀ p c, resolveSide x table i src cur = (.ok p, c) →
          resolveBurst x table i work cur = (.ok ([p], banks.map fun b => .bank b k), c)) ∧
        (∀ f c, resolveSide x table i src cur = (.error f, c) → resolveBurst x table i work cur = (.error f, c))) ∧
      (∀ pattern dst,
        (∀ q d, resolveSide x table i dst cur = (.ok q, d) →
          resolveBurst x table i (.fill pattern dst) cur = (.ok ([], [q]), d)) ∧
        (∀ f d, resolveSide x table i dst cur = (.error f, d) →
          resolveBurst x table i (.fill pattern dst) cur = (.error f, d))) ∧
      ∀ b start, resolveBurst x table i (.tabload b a start) cur = (.ok ([.bank b k], []), cur)

/-- The walk reads the entry at its index once and takes the bursts of the whole run in ascending order, four to a
segment; then the index moves on modulo 512, or with stop set stays, and the next burst is SEG_OVERRUN. An invalid entry
is SEG_INVALID, and a valid one beyond G SEG_RANGE, at the entry's index (R122 to R124, R126). Within a run nothing more
is read: a burst there depends on neither the table nor XSIZE, whatever has been written to them since (R122, R127,
R128). -/
def Obligations.WalkUsesRunInOrder : Prop :=
  (∀ (x y : XSize) (table other : Vector SegEntry 512) (c : Cursor), c.left ≠ 0 →
    walkBurst x table c = walkBurst y other c) ∧
  ∀ (x : XSize) (table : Vector SegEntry 512) (c : Cursor) (e : SegEntry),
    c.left = 0 → c.stopHeld = false → table[c.index] = e →
    (e.valid = true → e.base.toNat + e.runLength ≤ x.segments →
      ∃ d, walkMany x table (4 * e.runLength) c =
          (.ok ((List.range (4 * e.runLength)).map fun n => 4 * e.base.toNat + n), d) ∧
        d.left = 0 ∧ d.position = 0 ∧ d.stopHeld = e.stop ∧
        (e.stop = false → d.index = c.index + 1) ∧
        (e.stop = true → d.index = c.index ∧
          (walkBurst x table d).1 = .error { fault := .segOverrun, place := .segtab c.index })) ∧
    (e.valid = false → (walkBurst x table c).1 = .error { fault := .segInvalid, place := .segtab c.index }) ∧
    (e.valid = true → x.segments < e.base.toNat + e.runLength →
      (walkBurst x table c).1 = .error { fault := .segRange, place := .segtab c.index })

/-! ## The course of a burst (R70 to R78, R81, R84, R86) -/

/-- The choice of an arbiter (R135, R151): none exactly when nothing waits; else a waiting burst of a slot whose job has
the highest priority among those that wait, the first such slot after the pointer, and in it the lowest burst index. At a
bank port a waiting host access is chosen before any engine request; the external port chooses so among the bursts with a
request waiting there, after its own pointer. -/
def Obligations.ArbiterOrder : Prop :=
  (∀ (s : State) (wants : Burst → Bool) (pointer : SlotId),
    (s.arbitrate wants pointer = none ↔ ∀ i j b, burstIn s i j b → wants b = false) ∧
    ∀ i j b, s.arbitrate wants pointer = some (i, j, b) →
      burstIn s i j b ∧ wants b = true ∧ (∀ c ∈ j.bursts, wants c = true → b.index ≤ c.index) ∧
      ∀ k l c, burstIn s k l c → wants c = true →
        l.command.priority ≤ j.command.priority ∧
        (l.command.priority = j.command.priority → (i - pointer - 1).val ≤ (k - pointer - 1).val)) ∧
  (∀ (s : State) (p : BankId),
    (∀ a, s.host.held = some a → a.bank = p → s.bankChoice p = none) ∧
    ((∀ a, s.host.held = some a → a.bank ≠ p) →
      s.bankChoice p = s.arbitrate (Burst.waitsAtBank p) (s.bankPointer p))) ∧
  ∀ s : State, s.extChoice = s.arbitrate Burst.waitsAtExt s.ext.pointer

/-- BURST_READ_TAKE of a read without parity error, for a MOVE that is ACTIVE or DRAINING and a burst that has not failed
(R70, R71, R96): the read returns with the bank's eight words; with the burst's last read the combine follows, which
places one write for each destination and adds its clamps to the saturation count, sticking at 65535. Only the pointer
and the job change. For a job in ENDING, or a burst that has failed, the words are discarded; a read with a parity error is
there a second failure, which marks the burst failed, withdraws its waiting reads, and changes no status, place or queue.
The burst ends uncounted when no sent read of it is left (R64, R65, R69, R81). -/
def Obligations.BankReadReturns : Prop :=
  (∀ (p : BankId) (s : State) (i : SlotId) (j : Job) (b : Burst) (r : ReadRequest) (bank : BankId) (k : BankBurst),
    s.bankChoice p = some (i, j, b) → b.reads.find? (ReadRequest.waitsAtBank p) = some r → r.place = .bank bank k →
    j.isRunning = false ∨ b.failed = true →
    ((∀ n, (s.memory.readWord bank (burstWord k n)).agrees = true) →
      exec (.burstReadTake p) s = .next (afterDiscard (s.setBankPointer p i) i j (withoutRead b r))) ∧
    ((∃ n, (s.memory.readWord bank (burstWord k n)).agrees = false) →
      exec (.burstReadTake p) s = .next (afterDiscard (s.setBankPointer p i) i j (failedRead b r)))) ∧
  ∀ (p : BankId) (s : State) (i : SlotId) (j : Job) (b c : Burst) (role : ReadRole) (bank : BankId) (k : BankBurst),
    s.bankChoice p = some (i, j, b) →
    b.reads.find? (ReadRequest.waitsAtBank p) = some { role := role, place := .bank bank k, stage := .waiting } →
    j.isRunning = true → b.failed = false → j.command.work.kind = .move →
    (∀ n, (s.memory.readWord bank (burstWord k n)).agrees = true) →
    c = b.setRead { role := role, place := .bank bank k, stage := .waiting }
      (.returned (mkBurst fun n => (s.memory.readWord bank (burstWord k n)).data)) →
    exec (.burstReadTake p) s = .next ((s.setBankPointer p i).setSlot i (some
      (if c.reads.all hasReturned = true then
        { j.putBurst
            { c with
              state := .writing
              writes := b.dests.map fun d =>
                { place := d, stage := .waiting, words := (c.combined j.command.work).1 } } with
          saturation := min (j.saturation + (c.combined j.command.work).2) 65535 }
       else j.putBurst c)))

/-- The words and clamps of a combine, from the returned reads in their places (R73, R75 to R77, R95, R98 to R100): a copy
of the source; op(old, source); the fold of the sources in the order of the reads, which is the order of the burst's
sources (BurstIssueResult), the ascending bank order of R99 (SideAddressAtIndex, DecodeChecksInOrder); with accumulate,
op(old, fold). -/
def Obligations.CombineComputes : Prop :=
  ∀ (b : Burst) (first : Place) (rest : List Place) (dst : Place) (d : BurstData) (ds : List BurstData) (old : BurstData)
    (sources : List ReadRequest) (oldRead : ReadRequest),
    rest.length = ds.length →
    sources = ((first :: rest).zip (d :: ds)).map (fun x => { role := .source, place := x.1, stage := .returned x.2 }) →
    oldRead = { role := .oldDestination, place := dst, stage := .returned old } →
    (∀ src side, b.reads = sources → b.combined (.copy src side) = (d, 0)) ∧
    (∀ src banks a, b.reads = sources → b.combined (.spread src banks a) = (d, 0)) ∧
    (∀ op w src side, b.reads = sources ++ [oldRead] →
      b.combined (.accum op w src side) = (applyBurst op w old d, clampsBurst op w old d)) ∧
    (∀ op w banks a side, b.reads = sources → b.combined (.merge op w false banks a side) = foldBursts op w d ds) ∧
    (∀ op w banks a side, b.reads = sources ++ [oldRead] →
      b.combined (.merge op w true banks a side) =
        (applyBurst op w old (foldBursts op w d ds).1,
          (foldBursts op w d ds).2 + clampsBurst op w old (foldBursts op w d ds).1))

/-- BURST_READ_TAKE of a TABLOAD burst without parity error, its job ACTIVE or DRAINING (R69, R78, R84, R108, R118, R119):
its 16 entries are written, two from each word, low half at the even index, indices modulo 512, and every other entry is
as it was; the burst ends well and is counted, releases an entry if it holds one, and the job finishes with its last
burst. -/
def Obligations.TabloadWritesGroup : Prop :=
  (∀ (p : BankId) (s : State) (i : SlotId) (j : Job) (b : Burst) (bank source : BankId) (k : BankBurst) (a : BitVec 22)
    (start : BitVec 9),
    s.bankChoice p = some (i, j, b) →
    b.reads = [{ role := .source, place := .bank bank k, stage := .waiting }] → bank = p →
    j.isRunning = true → b.failed = false → j.command.work = .tabload source a start →
    (∀ n, (s.memory.readWord bank (burstWord k n)).agrees = true) →
    exec (.burstReadTake p) s = .next
      (afterBurst
        { s.setBankPointer p i with
          segments := loadGroup s.segments start b.index
            (mkBurst fun n => (s.memory.readWord bank (burstWord k n)).data) }
        i { j with done := j.done + 1 } b.index)) ∧
  ∀ (table : Vector SegEntry 512) (start : BitVec 9) (i : Nat) (d : BurstData),
    (∀ k : Fin 8,
      (loadGroup table start i d)[Fin.ofNat 512 (start.toNat + 16 * i + 2 * k.val)] =
        SegEntry.ofHalf (d[k].extractLsb' 0 32) ∧
      (loadGroup table start i d)[Fin.ofNat 512 (start.toNat + 16 * i + 2 * k.val + 1)] =
        SegEntry.ofHalf (d[k].extractLsb' 32 32)) ∧
    ∀ m : SegIndex, (∀ k, k < 16 → m ≠ Fin.ofNat 512 (start.toNat + 16 * i + k)) →
      (loadGroup table start i d)[m] = table[m]

/-- BURST_READ_TAKE of a read with a parity error, in a job that is ACTIVE or DRAINING (R7, R15, R41, R64, R65, R81): the
first fault, at the lowest-numbered word in error. The burst is marked failed and its waiting reads are withdrawn; it ends
unless another read of it was sent and has not returned; the queue is told, the job is in ENDING with the bursts that stay in flight, and with none left it finishes in
the same happening. The banks are as they were. -/
def Obligations.ParityErrorIsFirstFault : Prop :=
  ∀ (p : BankId) (s : State) (i : SlotId) (j : Job) (b c : Burst) (r : ReadRequest) (bank : BankId) (k : BankBurst)
    (n : Fin 8),
    s.bankChoice p = some (i, j, b) → b.reads.find? (ReadRequest.waitsAtBank p) = some r → r.place = .bank bank k →
    j.isRunning = true → b.failed = false → (s.queue j.queue).state ≠ .aborting →
    j.bursts.Pairwise (fun b c => b.index < c.index) →
    (s.memory.readWord bank (burstWord k n)).agrees = false →
    (∀ m, m < n → (s.memory.readWord bank (burstWord k m)).agrees = true) →
    c = failedRead b r →
    ∃ t, exec (.burstReadTake p) s = .next t ∧ t.ext = s.ext ∧
      t.bankPointer p = i ∧ (∀ o, o ≠ p → t.bankPointer o = s.bankPointer o) ∧
      FirstFault s t i j { fault := .bankParity, place := .bank bank (burstWord k n) } (j.putBurst c).bursts

/-- BURST_WRITE_TAKE (R2, R6, R8, R72): the eight words of the chosen write are stored with fresh check bits at words 8k to
8k + 7 of its bank, every other bank word is as it was, and the port's pointer names the slot. -/
def Obligations.BankWriteStores : Prop :=
  ∀ (p : BankId) (s : State) (i : SlotId) (j : Job) (b : Burst) (w : WriteRequest) (bank : BankId) (k : BankBurst),
    s.bankChoice p = some (i, j, b) → b.reads.find? (ReadRequest.waitsAtBank p) = none →
    b.writes.find? (WriteRequest.waitsAtBank p) = some w → w.place = .bank bank k →
    ∃ t, exec (.burstWriteTake p) s = .next t ∧
      (∀ n, t.memory.readWord bank (burstWord k n) = { data := w.words[n], agrees := true }) ∧
      (∀ c y, (∀ n, ¬(c = bank ∧ y = burstWord k n)) → t.memory.readWord c y = s.memory.readWord c y) ∧
      t.bankPointer p = i ∧ (∀ o, o ≠ p → t.bankPointer o = s.bankPointer o) ∧
      t.segments = s.segments ∧ t.ext = s.ext ∧ t.host = s.host ∧
      ((∃ x ∈ b.writes, x ≠ w ∧ x.stage ≠ .done) → t.slot i = some (j.putBurst (b.setWrite w .done)))

/-- The end of a burst's last bank write and the finish of a job. The burst is counted, whether its job is ACTIVE,
DRAINING or ENDING, releases its entry, and the job finishes with its last burst (R69, R72, R84, R108). The finish settles
the status by the table of R84, a fault or CANCELLED as well as OK. Without a record the slot is freed; with one, and
room, the record is posted, with the place of its fault, and the slot freed; without room the slot is in POSTING at the
end of the posting wait list (R84, R85, R164). The free makes the slot FREE, releases the tag, with poison unless the
status is OK, tells the queue, and grants the slot (R86). -/
def Obligations.LastWriteFinishesJob : Prop :=
  (∀ (p : BankId) (s : State) (i : SlotId) (j : Job) (b : Burst) (w : WriteRequest) (bank : BankId) (k : BankBurst),
    s.bankChoice p = some (i, j, b) → b.reads.find? (ReadRequest.waitsAtBank p) = none →
    b.writes.find? (WriteRequest.waitsAtBank p) = some w → w.place = .bank bank k →
    (∀ x ∈ b.writes, x = w ∨ x.stage = .done) →
    exec (.burstWriteTake p) s = .next
      (afterBurst { s.setBankPointer p i with memory := s.memory.writeBurst bank k w.words } i
        { j with done := j.done + 1 } b.index)) ∧
  (∀ (s : State) (i : SlotId) (j : Job) (st : Status), SettledAs j st →
    (¬RecordNeeded j.command.report st →
      s.finishJob i j = (s.setSlot i (some { j with status := some st })).freeSlot i) ∧
    (RecordNeeded j.command.report st → s.completion.fifo.length < 64 → s.completion.waiters = [] →
      s.finishJob i j =
        ((s.setSlot i (some { j with status := some st })).setCompletion
          { s.completion with
            fifo := s.completion.fifo ++
              [Record.job j.command.work.kind st j.queue j.seq j.command.tag j.done j.saturation j.place] }).freeSlot i) ∧
    (RecordNeeded j.command.report st → 64 ≤ s.completion.fifo.length ∨ s.completion.waiters ≠ [] →
      s.finishJob i j =
        (s.setSlot i (some { j with state := .posting, status := some st })).setCompletion
          { s.completion with waiters := s.completion.waiters ++ [.slot i] })) ∧
  ∀ (s : State) (i : SlotId) (j : Job) (st : Status), s.slot i = some j → j.status = some st →
    s.freeSlot i =
      ((match j.command.tag with
        | none => s.setSlot i none
        | some t => (s.setSlot i none).releaseTag t (decide (st ≠ Status.ok))).modQueue j.queue fun x : Queue =>
          if x.state = QueueState.aborting ∧ x.jobs - 1 = 0 then { x with jobs := x.jobs - 1, state := .stopped }
          else { x with jobs := x.jobs - 1 }).grantSlot i

/-! ## Interlock (chapter 06) -/

/-- The release of a burst's entry and the scan (R107, R108): the one entry is removed, and at most one waiter is granted,
the oldest whose key no entry then holds; it leaves the list, takes an entry, and its burst enters READING. -/
def Obligations.ReleaseGrantsOldestEligible : Prop :=
  ∀ (s : State) (i : SlotId) (n : Nat) (table : List LockRequest), InterlockSound s → s.interlock.waiters.Nodup →
    table = s.interlock.table.filter (fun e => ¬(e.slot = i ∧ e.burst = n)) →
    table.length + 1 = s.interlock.table.length →
    ((∀ w ∈ s.interlock.waiters, ∃ e ∈ table, e.key = w.key) →
      s.releaseEntry i n = s.setInterlock { s.interlock with table := table }) ∧
    ∀ before w after, s.interlock.waiters = before ++ w :: after →
      (∀ x ∈ before, ∃ e ∈ table, e.key = x.key) → (∀ e ∈ table, e.key ≠ w.key) →
      s.releaseEntry i n =
        (s.setInterlock { table := table ++ [w], waiters := before ++ after }).modJob w.slot
          fun j => j.startReading w.burst

/-! ## External port (chapter 08) -/

/-- OFFER (R135, R136): with no offer standing, the request the arbiter chooses takes the lowest-numbered FREE ID, which
becomes BUSY, not accepted and without timer; the request is sent and the pointer names its slot. The request channel then
shows the ID, the operation, the external burst and, for a WRITE, the eight words of the burst's write to it, of which a
burst has one (R131). While no offer stands the channel shows nothing, and the port reset output follows the reset pin
(R131, R148). With an offer standing, no FREE ID or nothing waiting there is no offer (nothing changes: the model's choice,
log entry 1). -/
def Obligations.OfferGivesLowestFreeId : Prop :=
  (∀ s : State, ((∀ e, (s.reqId e).isOffered = false) → s.requestChannel = none) ∧ s.portResetOutput = s.resetPin) ∧
  ∀ (s : State), s.resetPin = false →
    (∀ (d : ReqId) (i : SlotId) (j : Job) (b : Burst) (x : Nat), (∀ e, (s.reqId e).isOffered = false) →
      s.reqId d = .free → (∀ e, e < d → s.reqId e ≠ .free) → s.extChoice = some (i, j, b) →
      (∀ r, b.reads.find? ReadRequest.waitsAtExt = some r → r.place = .ext x →
        ∃ t, exec .offer s = .next t ∧
          t = { s.setSlot i (some (j.putBurst (b.setRead r .sent))) with
                ext := { s.ext with
                  ids := s.ext.ids.set d
                    (.busy { slot := i, burst := b.index, role := .read r.role, address := x
                             accepted := false, timer := none })
                  pointer := i } } ∧
          t.requestChannel = some { id := d, isWrite := false, address := x, writeData := none }) ∧
      (∀ w, b.reads.find? ReadRequest.waitsAtExt = none → b.writes.find? WriteRequest.waitsAtExt = some w →
        w.place = .ext x →
        ∃ t, exec .offer s = .next t ∧
          t = { s.setSlot i (some (j.putBurst (b.setWrite w .sent))) with
                ext := { s.ext with
                  ids := s.ext.ids.set d
                    (.busy { slot := i, burst := b.index, role := .write, address := x
                             accepted := false, timer := none })
                  pointer := i } } ∧
          ((∀ v ∈ b.writes, v.place = .ext x → v = w) →
            t.requestChannel = some { id := d, isWrite := true, address := x, writeData := some w.words }))) ∧
    ((∃ e, (s.reqId e).isOffered = true) ∨ (∀ e, s.reqId e ≠ .free) ∨ s.extChoice = none →
      exec .offer s = .next s)

/-- ACCEPTANCE (R131, R137): the standing offer's ID is accepted and its timer started from XTIMEOUT, or not at all when
that is 0, and the request channel is idle; with no offer standing the accept signal is ignored. -/
def Obligations.AcceptanceStartsTimer : Prop :=
  ∀ (s : State), s.resetPin = false →
    (∀ (d : ReqId) (b : BusyId), s.reqId d = .busy b → b.accepted = false → OneOffer s →
      ∃ t, exec .acceptance s = .next t ∧
        t = s.setReqId d
          (.busy { b with
            accepted := true, timer := if s.ext.xtimeout = 0 then none else some s.ext.xtimeout }) ∧
        t.requestChannel = none) ∧
    ((∀ e, (s.reqId e).isOffered = false) → exec .acceptance s = .next s)

/-- RESPONSE to an ID that is not BUSY and accepted (R141, R142): a stray response only sets the STRAY cause; a late
response only frees its ID. A response and the expiry of a running timer of the same ID, in either order (R140, R141):
after the response the ID is FREE and no expiry happens; after the expiry it is QUARANTINED, and the response only frees
it. -/
def Obligations.StrayLateAndRacingResponses : Prop :=
  ∀ (s : State) (d : ReqId) (r : ResponseResult) (data : BurstData), s.resetPin = false →
    (s.reqId d = .free → exec (.response d r data) s = .next (s.setInterrupts { s.interrupts with stray := true })) ∧
    (s.reqId d = .quarantined → exec (.response d r data) s = .next (s.setReqId d .free)) ∧
    ∀ b, s.reqId d = .busy b →
      (b.accepted = false →
        exec (.response d r data) s = .next (s.setInterrupts { s.interrupts with stray := true })) ∧
      (b.accepted = true → b.timer.isSome = true →
        (∃ t, exec (.response d r data) s = .next t ∧ t.reqId d = .free ∧ exec (.expiry d) t = .next t) ∧
        ∃ t, exec (.expiry d) s = .next t ∧ t.reqId d = .quarantined ∧
          exec (.response d r data) t = .next (t.setReqId d .free))

/-- RESPONSE with OK to an accepted request (R65, R69, R71, R72, R81, R138): the ID is FREE. A READ of a MOVE that is
ACTIVE or DRAINING, whose burst has not failed, returns its words, and the combine follows with the burst's last read. A
READ of a job in ENDING, or of a burst that has failed, is discarded, and the burst ends uncounted when no sent read of it
is left. A burst's only WRITE is done, and its burst ends well and is counted whatever the state of its job, releases its
entry, and the job finishes with its last burst. -/
def Obligations.OkResponseDelivered : Prop :=
  ∀ (s : State) (d : ReqId) (data : BurstData) (o : BusyId) (j : Job) (b : Burst),
    s.resetPin = false → s.reqId d = .busy o → o.accepted = true → s.slot o.slot = some j →
    j.bursts.find? (fun c => c.index = o.burst) = some b →
    (∀ (role : ReadRole) (r : ReadRequest), o.role = .read role →
      b.reads.find? (fun r => r.isSent && r.role = role && r.place = .ext o.address) = some r →
      (∀ c, j.isRunning = true → b.failed = false → j.command.work.kind = .move → c = b.setRead r (.returned data) →
        exec (.response d .ok data) s = .next ((s.setReqId d .free).setSlot o.slot (some
          (if c.reads.all hasReturned = true then
            { j.putBurst
                { c with
                  state := .writing
                  writes := b.dests.map fun d =>
                    { place := d, stage := .waiting, words := (c.combined j.command.work).1 } } with
              saturation := min (j.saturation + (c.combined j.command.work).2) 65535 }
           else j.putBurst c)))) ∧
      (j.isRunning = false ∨ b.failed = true →
        exec (.response d .ok data) s = .next (afterDiscard (s.setReqId d .free) o.slot j (withoutRead b r)))) ∧
    (∀ words, o.role = .write → b.writes = [{ place := .ext o.address, stage := .sent, words := words }] →
      exec (.response d .ok data) s = .next
        (afterBurst (s.setReqId d .free) o.slot { j with done := j.done + 1 } b.index))

/-- An external request fails (R41, R64, R65, R81, R82, R138, R139): RESPONSE with ERROR frees the ID and is EXT_ERROR;
EXPIRY quarantines it and is EXT_TIMEOUT. In a job that is ACTIVE or DRAINING it is the first fault, at word 0 of the
burst the request named: the queue is told, the job is in ENDING with the bursts that stay in flight, and with none left
it finishes in the same happening. In a job in ENDING it is a second failure, which changes no status, place or queue: a
READ marks its burst failed, which ends uncounted when no sent read of it is left, and a WRITE ends its burst uncounted. -/
def Obligations.ExternalFailureIsFirstFault : Prop :=
  ∀ (s : State) (d : ReqId) (data : BurstData) (o : BusyId) (j : Job) (b : Burst),
    s.resetPin = false → s.reqId d = .busy o → o.accepted = true → s.slot o.slot = some j →
    j.bursts.find? (fun c => c.index = o.burst) = some b →
    (carries o b = true → b.failed = false → j.isRunning = true → (s.queue j.queue).state ≠ .aborting →
      j.bursts.Pairwise (fun b c => b.index < c.index) →
      (∃ t, exec (.response d .error data) s = .next t ∧ t.reqId d = .free ∧ (∀ e, e ≠ d → t.reqId e = s.reqId e) ∧
        t.bankPointers = s.bankPointers ∧
        FirstFault s t o.slot j { fault := .extError, place := .ext (8 * o.address) }
          (j.putBurst (failedRequest o b)).bursts) ∧
      (o.timer.isSome = true →
        ∃ t, exec (.expiry d) s = .next t ∧ t.reqId d = .quarantined ∧ (∀ e, e ≠ d → t.reqId e = s.reqId e) ∧
          t.bankPointers = s.bankPointers ∧
          FirstFault s t o.slot j { fault := .extTimeout, place := .ext (8 * o.address) }
            (j.putBurst (failedRequest o b)).bursts)) ∧
    (∀ role, o.role = .read role → carries o b = true → j.isRunning = false ∨ b.failed = true →
      exec (.response d .error data) s = .next (afterDiscard (s.setReqId d .free) o.slot j (failedRequest o b)) ∧
      (o.timer.isSome = true →
        exec (.expiry d) s = .next (afterDiscard (s.setReqId d .quarantined) o.slot j (failedRequest o b)))) ∧
    (o.role = .write → carries o b = true → j.isRunning = false →
      exec (.response d .error data) s = .next (afterBurst (s.setReqId d .free) o.slot j b.index) ∧
      (o.timer.isSome = true →
        exec (.expiry d) s = .next (afterBurst (s.setReqId d .quarantined) o.slot j b.index)))

/-! ## Aperture (chapter 09) -/

/-- A word write through the aperture (R6, R153, R154, R157): APDHI_WRITE places and holds the word of the write latch and
the value where APADDR names; WORD_WRITE_TAKE stores it with fresh check bits, leaves every other bank word, advances the
word address modulo 8192, and releases the access. -/
def Obligations.ApertureWordWrite : Prop :=
  (∀ (v : Half) (s : State), HostPortFree s →
    exec (.apdhiWrite v) s = .next
      { s with host := { s.host with held := some (.wordWrite s.host.apBank s.host.apWord (v ++ s.host.writeLatch)) } }) ∧
  ∀ (s : State) (b : BankId) (w : BankWord) (x : Word), s.host.held = some (.wordWrite b w x) →
    ∃ m, exec .wordWriteTake s = .next
        { s with memory := m, host := { s.host with held := none, apWord := s.host.apWord + 1 } } ∧
      Memory.readWord m b w = { data := x, agrees := true } ∧
      ∀ c y, ¬(c = b ∧ y = w) → Memory.readWord m c y = s.memory.readWord c y

/-- A word read through the aperture (R153, R155 to R157): APDLO_READ places and holds it; WORD_READ_TAKE returns the low
half, latches the high half, sets PARITY when the check fails, and does not advance the address; APDHI_READ returns the
latch and advances the address modulo 8192; APSTAT_WRITE clears PARITY when bit 0 is set. None changes a bank word. -/
def Obligations.ApertureWordRead : Prop :=
  (∀ s : State, HostPortFree s →
    exec .apdloRead s = .next
      { s with host := { s.host with held := some (.wordRead s.host.apBank s.host.apWord) } } ∧
    exec .apdhiRead s = .next
      { s with host := { s.host with readData := s.host.readLatch, apWord := s.host.apWord + 1 } } ∧
    ∀ v : Half, exec (.apstatWrite v) s = .next
      { s with host := { s.host with parity := if v.getLsbD 0 = true then false else s.host.parity } }) ∧
  ∀ (s : State) (b : BankId) (w : BankWord), s.host.held = some (.wordRead b w) →
    exec .wordReadTake s = .next
      { s with host := { s.host with
          readData := (s.memory.readWord b w).data.extractLsb' 0 32
          readLatch := (s.memory.readWord b w).data.extractLsb' 32 32
          parity := if (s.memory.readWord b w).agrees = true then s.host.parity else true
          held := none } }

/-! ## Completion and interrupts (chapter 10) -/

/-- CFPOP (R166, R169): an empty FIFO shows kind NONE; otherwise the front record goes to the view, and the oldest poster
that waits, if any, leaves the list and posts at the back of the FIFO. A NOTE leaves its queue, which is RUNNING, and sets
the NOTE cause by its flag. A job in POSTING frees its slot (R86): its tag is released, with poison unless it ended OK, its
queue is told, and the slot is granted. -/
def Obligations.PopResult : Prop :=
  ∀ s : State, HostPortFree s →
    (s.completion.fifo = [] → exec .cfpop s = .next (s.setCompletion { s.completion with view := none })) ∧
    ∀ r rest, s.completion.fifo = r :: rest →
      (s.completion.waiters = [] →
        exec .cfpop s = .next (s.setCompletion { s.completion with fifo := rest, view := some r })) ∧
      (∀ q ws c cs, s.completion.waiters = .queue q :: ws → (s.queue q).commands = c :: cs →
        exec .cfpop s = .next
          (((s.setCompletion
              { fifo := rest ++ [Record.note q c.seq c.parts.mark], waiters := ws, view := some r }).setQueue q
              { s.queue q with commands := cs, state := .running }).setInterrupts
            { s.interrupts with note := s.interrupts.note || c.parts.flag })) ∧
      ∀ i ws j st u, s.completion.waiters = .slot i :: ws → s.slot i = some j → j.status = some st →
        u = (s.setCompletion
            { fifo := rest ++
                [Record.job j.command.work.kind st j.queue j.seq j.command.tag j.done j.saturation j.place]
              waiters := ws, view := some r }).setSlot i none →
        exec .cfpop s = .next
          (((match j.command.tag with
            | none => u
            | some t => u.releaseTag t (decide (st ≠ Status.ok))).modQueue j.queue fun x : Queue =>
              if x.state = QueueState.aborting ∧ x.jobs - 1 = 0 then { x with jobs := x.jobs - 1, state := .stopped }
              else { x with jobs := x.jobs - 1 }).grantSlot i)

/-- The interrupt line (R173 to R175): asserted exactly while the reset pin is not and some cause is true and unmasked,
the CPL cause being true while the FIFO holds at least the threshold. -/
def Obligations.InterruptLineFollowsCauses : Prop :=
  ∀ s : State, s.interruptLine = true ↔
    s.resetPin = false ∧
      ((s.interrupts.halt = true ∧ s.interrupts.mask.getLsbD 0 = false) ∨
       (s.interrupts.note = true ∧ s.interrupts.mask.getLsbD 1 = false) ∨
       (s.interrupts.stray = true ∧ s.interrupts.mask.getLsbD 2 = false) ∨
       (s.interrupts.threshold ≤ s.completion.fifo.length ∧ s.interrupts.mask.getLsbD 3 = false))

/-! ## Configuration, window and resets (chapters 07, 08, 10, 11) -/

/-- The host's writes to ICAUSE, IMASK, ICPLTH, XCFG and SEGm (R117, R146, R172 to R174, R181, R184): each changes its own
fields and nothing else. -/
def Obligations.ConfigurationWrites : Prop :=
  ∀ (s : State) (v : Half), HostPortFree s →
    exec (.icauseWrite v) s = .next (s.setInterrupts
      { s.interrupts with
        halt := if v.getLsbD 0 = true then false else s.interrupts.halt
        note := if v.getLsbD 1 = true then false else s.interrupts.note
        stray := if v.getLsbD 2 = true then false else s.interrupts.stray }) ∧
    exec (.imaskWrite v) s = .next (s.setInterrupts { s.interrupts with mask := v.extractLsb' 0 4 }) ∧
    exec (.icplthWrite v) s = .next
      (if 1 ≤ v.toNat ∧ v.toNat ≤ 64 then s.setInterrupts { s.interrupts with threshold := v.toNat } else s) ∧
    (∃ x, exec (.xcfgWrite v) s = .next
        { s with ext := { s.ext with xtimeout := v.extractLsb' 8 8, xsize := x } } ∧
      (v.toNat % 8 ≤ 4 → x.code = v.toNat % 8) ∧ (5 ≤ v.toNat % 8 → x = s.ext.xsize)) ∧
    ∀ m : SegIndex, exec (.segWrite m v) s = .next (s.setSegment m
      { valid := v.getLsbD 31, stop := v.getLsbD 30, lengthMinusOne := v.extractLsb' 20 6
        base := v.extractLsb' 0 20 })

/-- REGISTER_WRITE (R21, R153, R154, R177, R179, R183): at QnSTAGEk, APADDR and APDLO the value is stored; an address with
the two lowest bits set reaches the register that contains it; at an address that the map does not name, and at a
read-only register, nothing changes; at the address of a register whose write is another row of the table, the write is that command, which
at QnCTL is the one that bits 2:0 name, whatever bits 31:3 hold, and for codes 0, 6 and 7 a refusal. -/
def Obligations.RegisterWriteReaches : Prop :=
  ∀ (s : State) (v : Half),
    (∀ addr : BitVec 12, exec (.registerWrite addr v) s = exec (.registerWrite (addr &&& 0xFFC#12) v) s) ∧
    (∀ addr : BitVec 12, registerAt addr = none → exec (.registerWrite addr v) s = .next s) ∧
    (∀ addr : BitVec 12, registerAt addr = none ↔ ¬InMap addr) ∧
    (HostPortFree s →
      (∀ (q : QueueId) (k : Fin 4),
        exec (.registerWrite (BitVec.ofNat 12 (0x200 + 0x80 * q.val + 4 * k.val)) v) s = .next
          { s with host := { s.host with staging := s.host.staging.set q ((s.host.staging[q]).set k v) } }) ∧
      exec (.registerWrite 0x040 v) s = .next
        { s with host := { s.host with
            apWord := Fin.ofNat 8192 v.toNat, apBank := Fin.ofNat 8 (v.toNat / 65536) } } ∧
      exec (.registerWrite 0x044 v) s = .next { s with host := { s.host with writeLatch := v } }) ∧
    (exec (.registerWrite 0x008 v) s = .next s ∧
      (∀ k : Fin 4, exec (.registerWrite (BitVec.ofNat 12 (0x024 + 4 * k.val)) v) s = .next s) ∧
      ∀ q : QueueId,
        exec (.registerWrite (BitVec.ofNat 12 (0x218 + 0x80 * q.val)) v) s = .next s ∧
        exec (.registerWrite (BitVec.ofNat 12 (0x21C + 0x80 * q.val)) v) s = .next s ∧
        exec (.registerWrite (BitVec.ofNat 12 (0x220 + 0x80 * q.val)) v) s = .next s) ∧
    (∀ q : QueueId,
      exec (.registerWrite (BitVec.ofNat 12 (0x210 + 0x80 * q.val)) v) s = exec (.push q) s ∧
      (v.toNat % 8 = 1 → exec (.registerWrite (BitVec.ofNat 12 (0x214 + 0x80 * q.val)) v) s = exec (.start q) s) ∧
      (v.toNat % 8 = 2 → exec (.registerWrite (BitVec.ofNat 12 (0x214 + 0x80 * q.val)) v) s = exec (.stop q) s) ∧
      (v.toNat % 8 = 3 → exec (.registerWrite (BitVec.ofNat 12 (0x214 + 0x80 * q.val)) v) s = exec (.resume q) s) ∧
      (v.toNat % 8 = 4 → exec (.registerWrite (BitVec.ofNat 12 (0x214 + 0x80 * q.val)) v) s = exec (.skip q) s) ∧
      (v.toNat % 8 = 5 → exec (.registerWrite (BitVec.ofNat 12 (0x214 + 0x80 * q.val)) v) s = exec (.abort q) s) ∧
      (v.toNat % 8 = 0 ∨ 6 ≤ v.toNat % 8 →
        exec (.registerWrite (BitVec.ofNat 12 (0x214 + 0x80 * q.val)) v) s = exec (.controlCodeRefused q v) s)) ∧
    (∀ t : TagId, exec (.registerWrite (BitVec.ofNat 12 (0x100 + 4 * t.val)) v) s = exec (.clear t v) s) ∧
    (∀ m : SegIndex, exec (.registerWrite (BitVec.ofNat 12 (0x800 + 4 * m.val)) v) s = exec (.segWrite m v) s) ∧
    exec (.registerWrite 0x000 v) s = exec (.softReset v) s ∧
    exec (.registerWrite 0x004 v) s = exec (.xcfgWrite v) s ∧
    exec (.registerWrite 0x010 v) s = exec (.icauseWrite v) s ∧
    exec (.registerWrite 0x014 v) s = exec (.imaskWrite v) s ∧
    exec (.registerWrite 0x018 v) s = exec (.icplthWrite v) s ∧
    exec (.registerWrite 0x020 v) s = exec .cfpop s ∧
    exec (.registerWrite 0x048 v) s = exec (.apdhiWrite v) s ∧
    exec (.registerWrite 0x04C v) s = exec (.apstatWrite v) s

/-- While the reset pin is asserted the host port takes no access and the external port no happening: every write is
ignored, a read completes with data 0, and OFFER, ACCEPTANCE, RESPONSE and EXPIRY change nothing (R148, R177). That no step
leaves the condition the reset left in any block (R31, R44, R51, R88, R114, R116, R148, R160, R175) is read from the rules:
in that condition no other block has a happening to take (log entry 18, DEDUCED). -/
def Obligations.NothingTakenUnderReset : Prop :=
  ∀ s : State, s.resetPin = true →
    (∀ q, exec (.push q) s = .next s ∧ exec (.start q) s = .next s ∧ exec (.stop q) s = .next s ∧
      exec (.resume q) s = .next s ∧ exec (.skip q) s = .next s ∧ exec (.abort q) s = .next s) ∧
    (∀ v : Half, (∀ q, exec (.controlCodeRefused q v) s = .next s) ∧ (∀ t, exec (.clear t v) s = .next s) ∧
      (∀ m, exec (.segWrite m v) s = .next s) ∧ exec (.xcfgWrite v) s = .next s ∧ exec (.icauseWrite v) s = .next s ∧
      exec (.imaskWrite v) s = .next s ∧ exec (.icplthWrite v) s = .next s ∧ exec (.apdhiWrite v) s = .next s ∧
      exec (.apstatWrite v) s = .next s ∧ exec (.softReset v) s = .next s ∧
      ∀ addr, exec (.registerWrite addr v) s = .next s) ∧
    exec .cfpop s = .next s ∧ exec .offer s = .next s ∧ exec .acceptance s = .next s ∧
    (∀ d r data, exec (.response d r data) s = .next s ∧ exec (.expiry d) s = .next s) ∧
    exec .apdloRead s = .next { s with host := { s.host with readData := 0 } } ∧
    exec .apdhiRead s = .next { s with host := { s.host with readData := 0 } } ∧
    (∀ addr, s.readRegister addr = some 0) ∧
    (ResetHeld s → ∀ t, step s = .next t → ResetHeld t)

/-- A command whose happening cannot come about changes nothing, which is the model's choice (log entries 1, 6 and 15): a
host access while one is held on the bus (log entry 6), an issue that a slot may not make, a take at a port that chooses
nothing or chooses a request of the other kind (log entry 15), the take of a word access that is not held, and an expiry
without a running timer (log entry 1). -/
def Obligations.UnmetCommandsChangeNothing : Prop :=
  ∀ s : State,
    (s.resetPin = false → s.host.held ≠ none →
      (∀ q, exec (.push q) s = .next s ∧ exec (.start q) s = .next s ∧ exec (.stop q) s = .next s ∧
        exec (.resume q) s = .next s ∧ exec (.skip q) s = .next s ∧ exec (.abort q) s = .next s) ∧
      (∀ v : Half, (∀ q, exec (.controlCodeRefused q v) s = .next s) ∧ (∀ t, exec (.clear t v) s = .next s) ∧
        (∀ m, exec (.segWrite m v) s = .next s) ∧ exec (.xcfgWrite v) s = .next s ∧ exec (.icauseWrite v) s = .next s ∧
        exec (.imaskWrite v) s = .next s ∧ exec (.icplthWrite v) s = .next s ∧ exec (.apdhiWrite v) s = .next s ∧
        exec (.apstatWrite v) s = .next s ∧ exec (.softReset v) s = .next s ∧
        ∀ addr, exec (.registerWrite addr v) s = .next s) ∧
      exec .cfpop s = .next s ∧ exec .apdloRead s = .next s ∧ exec .apdhiRead s = .next s) ∧
    (∀ i, (∀ j, s.slot i = some j → j.state ≠ .active ∨ j.command.count ≤ j.next ∨ j.limit ≤ j.inFlight) →
      exec (.burstIssue i) s = .next s) ∧
    (∀ p, s.bankChoice p = none → exec (.burstReadTake p) s = .next s ∧ exec (.burstWriteTake p) s = .next s) ∧
    (∀ p i j b, s.bankChoice p = some (i, j, b) →
      (b.reads.any (ReadRequest.waitsAtBank p) = false → exec (.burstReadTake p) s = .next s) ∧
      (b.reads.any (ReadRequest.waitsAtBank p) = true → exec (.burstWriteTake p) s = .next s)) ∧
    ((∀ b w, s.host.held ≠ some (.wordRead b w)) → exec .wordReadTake s = .next s) ∧
    ((∀ b w x, s.host.held ≠ some (.wordWrite b w x)) → exec .wordWriteTake s = .next s) ∧
    ∀ d, (∀ b, s.reqId d = .busy b → b.accepted = false ∨ b.timer = none) → exec (.expiry d) s = .next s

/-- What the host reads of each register (R21, R43, R146, R153, R156, R170, R173, R177 to R179, R181 to R184, R186): the
value is the sum of its fields, so that every other bit reads as 0; an address reaches the register that contains it; an
address that the map does not name and a write-only register read as 0. CFVIEWk shows what ViewRegistersShowRecord says, and the reads
of APDLO and APDHI are commands (ApertureWordRead). The fields of QnSTATE and QnSEQ; an entry written and read back, its
bits 29:26 read as 0; and the codes of the queue states, results, halt reasons and origins (R183, R188). -/
def Obligations.ReadBackFields : Prop :=
  (∀ x : Queue, x.commands.length ≤ 32 → x.jobs ≤ 8 →
    (x.showState.extractLsb' 0 3).toNat = x.state.code ∧
    (x.showState.getLsbD 3 = true ↔ x.state = .stalledRoom) ∧
    (x.showState.extractLsb' 4 6).toNat = x.commands.length ∧
    (x.showState.extractLsb' 10 4).toNat = x.jobs ∧
    (x.showState.extractLsb' 16 2).toNat = x.pushResult.code ∧
    (x.showState.extractLsb' 18 2).toNat = x.controlResult.code ∧
    x.showState.extractLsb' 14 2 = 0 ∧ x.showState.extractLsb' 20 12 = 0 ∧
    x.showSeq.extractLsb' 0 16 = x.nextSeq ∧ x.showSeq.extractLsb' 16 16 = x.headSeq) ∧
  (∀ v : Half, (SegEntry.ofHalf v).toHalf = v &&& 0xC3FFFFFF#32) ∧
  (∀ e : SegEntry, SegEntry.ofHalf e.toHalf = e) ∧
  ([QueueState.stopped, .running, .stalledSlot, .stalledRoom, .fenced, .halted, .aborting].map QueueState.code =
      [0, 1, 2, 2, 3, 4, 5] ∧
    [PushResult.none, .accepted, .full, .aborting].map PushResult.code = [0, 1, 2, 3] ∧
    [ControlResult.none, .accepted, .refused].map ControlResult.code = [0, 1, 2] ∧
    [HaltOrigin.decode, .fence, .job].map HaltOrigin.code = [1, 2, 3] ∧
    [HaltCode.job .extRange, .job .extError, .job .extTimeout, .job .bankParity, .job .segInvalid, .job .segRange,
      .job .segOverrun, .badKind, .badForm, .badLength, .fencePoisoned].map HaltCode.code =
      [2, 3, 4, 5, 6, 7, 8, 9, 10, 11, 12] ∧
    [XSize.mib16, .mib32, .mib64, .mib128, .mib256].map XSize.code = [0, 1, 2, 3, 4]) ∧
  ∀ s : State, s.resetPin = false →
    (∀ addr : BitVec 12, s.readRegister addr = s.readRegister (addr &&& 0xFFC#12)) ∧
    (∀ addr : BitVec 12, registerAt addr = none ∨ ¬InMap addr → s.readRegister addr = some 0) ∧
    s.readRegister 0x000 = some 0 ∧
    s.readRegister 0x004 = some (BitVec.ofNat 32 (s.ext.xsize.code + 0x100 * s.ext.xtimeout.toNat)) ∧
    s.readRegister 0x008 = some (BitVec.ofNat 32
      (((List.finRange 16).countP fun d => (s.reqId d).isBusy) +
        0x100 * ((List.finRange 16).countP fun d => s.reqId d = .quarantined) +
        0x10000 * (if ∃ d, (s.reqId d).isOffered = true then 1 else 0))) ∧
    s.readRegister 0x010 = some (BitVec.ofNat 32
      (s.interrupts.halt.toNat + 2 * s.interrupts.note.toNat + 4 * s.interrupts.stray.toNat +
        8 * (if s.interrupts.threshold ≤ s.completion.fifo.length then 1 else 0))) ∧
    s.readRegister 0x014 = some (BitVec.ofNat 32 s.interrupts.mask.toNat) ∧
    (s.interrupts.threshold ≤ 64 → s.readRegister 0x018 = some (BitVec.ofNat 32 s.interrupts.threshold)) ∧
    (s.completion.fifo.length ≤ 64 → s.completion.waiters.length ≤ 12 →
      s.readRegister 0x020 =
        some (BitVec.ofNat 32 (s.completion.fifo.length + 0x10000 * s.completion.waiters.length))) ∧
    (∀ k : Fin 4, s.readRegister (BitVec.ofNat 12 (0x024 + 4 * k.val)) = some (s.showView k)) ∧
    s.readRegister 0x040 = some (BitVec.ofNat 32 (s.host.apWord.val + 0x10000 * s.host.apBank.val)) ∧
    s.readRegister 0x04C = some (BitVec.ofNat 32 s.host.parity.toNat) ∧
    (∀ t : TagId, (s.tag t).count ≤ 8 →
      s.readRegister (BitVec.ofNat 12 (0x100 + 4 * t.val)) =
        some (BitVec.ofNat 32 ((s.tag t).count + 0x100 * (s.tag t).poison.toNat))) ∧
    (∀ (q : QueueId) (k : Fin 4),
      s.readRegister (BitVec.ofNat 12 (0x200 + 0x80 * q.val + 4 * k.val)) = some (s.host.staging[q])[k]) ∧
    (∀ q : QueueId,
      s.readRegister (BitVec.ofNat 12 (0x210 + 0x80 * q.val)) = some 0 ∧
      s.readRegister (BitVec.ofNat 12 (0x214 + 0x80 * q.val)) = some 0 ∧
      s.readRegister (BitVec.ofNat 12 (0x218 + 0x80 * q.val)) = some (s.queue q).showState ∧
      s.readRegister (BitVec.ofNat 12 (0x21C + 0x80 * q.val)) = some (s.queue q).showSeq ∧
      ((s.queue q).halt = none → s.readRegister (BitVec.ofNat 12 (0x220 + 0x80 * q.val)) = some 0) ∧
      ∀ h, (s.queue q).halt = some h →
        s.readRegister (BitVec.ofNat 12 (0x220 + 0x80 * q.val)) =
          some (BitVec.ofNat 32 (h.code.code + 0x10 * h.origin.code + 0x10000 * h.seq.toNat))) ∧
    ∀ m : SegIndex, s.readRegister (BitVec.ofNat 12 (0x800 + 4 * m.val)) = some (s.segment m).toHalf

/-- What CFVIEW0 to CFVIEW3 show (R161, R170, R187, R188): the fields of a job's record, of a NOTE's, and 0 for NONE, the
bits of no field 0; and the codes of the statuses and kinds. -/
def Obligations.ViewRegistersShowRecord : Prop :=
  ([Status.ok, .cancelled, .fault .extRange, .fault .extError, .fault .extTimeout, .fault .bankParity,
      .fault .segInvalid, .fault .segRange, .fault .segOverrun].map Status.code = [0, 1, 2, 3, 4, 5, 6, 7, 8] ∧
    [JobKind.move, .tabload].map JobKind.code = [1, 2]) ∧
  (∀ s : State, s.completion.view = none → ∀ k, s.showView k = 0) ∧
  (∀ (s : State) (kind : JobKind) (status : Status) (q : QueueId) (seq : BitVec 16) (tag : Option TagId)
    (done sat : Nat) (place : Option FaultPlace),
    s.completion.view = some (.job kind status q seq tag done sat place) → done ≤ 8192 → sat ≤ 65535 →
    (s.showView 0).extractLsb' 0 16 = seq ∧ ((s.showView 0).extractLsb' 16 2).toNat = kind.code ∧
    ((s.showView 0).extractLsb' 18 4).toNat = status.code ∧ ((s.showView 0).extractLsb' 22 2).toNat = q.val ∧
    (s.showView 0).getLsbD 24 = tag.isSome ∧
    ((s.showView 0).extractLsb' 25 5).toNat = (match tag with | some t => t.val | none => 0) ∧
    (s.showView 0).getLsbD 30 = place.isSome ∧ (s.showView 0).getLsbD 31 = false ∧
    ((s.showView 1).extractLsb' 0 14).toNat = done ∧ (s.showView 1).extractLsb' 14 2 = 0 ∧ ((s.showView 1).extractLsb' 16 16).toNat = sat ∧
    (place = none → s.showView 2 = 0 ∧ s.showView 3 = 0) ∧
    (∀ b w, place = some (.bank b w) →
      (s.showView 2).toNat = 4 * b.val ∧ (s.showView 3).toNat = w.val) ∧
    (∀ w, place = some (.ext w) → w < 2 ^ 32 → (s.showView 2).toNat = 1 ∧ (s.showView 3).toNat = w) ∧
    (∀ n, place = some (.segtab n) → (s.showView 2).toNat = 2 ∧ (s.showView 3).toNat = n.val)) ∧
  ∀ (s : State) (q : QueueId) (seq mark : BitVec 16), s.completion.view = some (.note q seq mark) →
    (s.showView 0).extractLsb' 0 16 = seq ∧ ((s.showView 0).extractLsb' 16 2).toNat = 3 ∧
    ((s.showView 0).extractLsb' 18 4).toNat = 0 ∧ ((s.showView 0).extractLsb' 22 2).toNat = q.val ∧
    (s.showView 0).extractLsb' 24 8 = 0 ∧ s.showView 1 = mark.setWidth 32 ∧ s.showView 2 = 0 ∧ s.showView 3 = 0

/-- SOFT_RESET (R9, R21, R31, R44, R51, R88, R114, R116, R147, R160, R176, R180): with bit 0 set, what it resets and what
it keeps; with bit 0 clear nothing changes. That it keeps readData, the data the host bus returned last, is the model's
choice (log entry 7). -/
def Obligations.SoftResetResult : Prop :=
  ∀ (s : State) (v : Half), HostPortFree s →
    (v.getLsbD 0 = false → exec (.softReset v) s = .next s) ∧
    (v.getLsbD 0 = true →
      ∃ ids : Vector IdState 16, exec (.softReset v) s = .next
        { State.reset with
          pending := s.pending
          host := { HostPort.reset with readData := s.host.readData }
          segments := s.segments
          ext := { ids := ids, pointer := 7, xsize := s.ext.xsize, xtimeout := s.ext.xtimeout }
          memory := s.memory
          interrupts :=
            { halt := false, note := false, stray := false, mask := s.interrupts.mask
              threshold := s.interrupts.threshold } } ∧
        ∀ d : ReqId,
          (s.reqId d = .free → ids[d] = .free) ∧ (s.reqId d = .quarantined → ids[d] = .quarantined) ∧
          ∀ b, s.reqId d = .busy b → ids[d] = if b.accepted = true then .quarantined else .free)

/-- PIN_RESET and PIN_RESET_END (R9, R44, R51, R88, R114, R116, R148, R157, R160, R175): every register goes to its value
of the pin reset, a held access ending with read data 0; the bank contents are kept, and the end of the reset changes
nothing but the pin. That readData is kept while no access is held is the model's choice (log entry 7); that a PIN_RESET
while the pin is asserted resets again, and a PIN_RESET_END while it is not changes nothing, is read from the rules (log
entry 20). -/
def Obligations.PinResetResult : Prop :=
  ∀ s : State,
    exec .pinReset s = .next
      { State.reset with
        pending := s.pending
        resetPin := true
        host := { HostPort.reset with
          readData := if s.host.held = none then s.host.readData else 0 }
        memory := s.memory } ∧
    exec .pinResetEnd s = .next { s with resetPin := false }

/-! ## Arithmetic (chapters 01, 05) -/

/-- Every result element depends on the two elements of its own number alone, at every width and operator; the clamps of a
word are those of its elements (R1, R89, R95). -/
def Obligations.ElementsIndependent : Prop :=
  ∀ (op : Op) (width : Width) (x y : Word),
    (∀ j, j < 64 / width.bits →
      element width.bits j (applyWord op width x y) =
        (apply op (element width.bits j x) (element width.bits j y)).1) ∧
    clampsWord op width x y = (List.range (64 / width.bits)).countP
      fun j => (apply op (element width.bits j x) (element width.bits j y)).2

/-- The three sums (R90, R91, R92): ADD is the sum modulo 2^w, never clamps, and is commutative and associative; ADDS holds
the exact signed sum, and ADDU the exact unsigned sum, in the range of the width, and clamps exactly outside it. -/
def Obligations.SumsHeldInRange : Prop :=
  ∀ (width : Width) (a b c : BitVec width.bits),
    ((apply .add a b).1.toNat = (a.toNat + b.toNat) % 2 ^ width.bits ∧ (apply .add a b).2 = false ∧
      (apply .add a b).1 = (apply .add b a).1 ∧
      (apply .add (apply .add a b).1 c).1 = (apply .add a (apply .add b c).1).1) ∧
    (2 ^ (width.bits - 1) - 1 < a.toInt + b.toInt →
      (apply .adds a b).1.toInt = 2 ^ (width.bits - 1) - 1 ∧ (apply .adds a b).2 = true) ∧
    (a.toInt + b.toInt < -(2 ^ (width.bits - 1)) →
      (apply .adds a b).1.toInt = -(2 ^ (width.bits - 1)) ∧ (apply .adds a b).2 = true) ∧
    (-(2 ^ (width.bits - 1)) ≤ a.toInt + b.toInt → a.toInt + b.toInt ≤ 2 ^ (width.bits - 1) - 1 →
      (apply .adds a b).1.toInt = a.toInt + b.toInt ∧ (apply .adds a b).2 = false) ∧
    (2 ^ width.bits - 1 < a.toNat + b.toNat →
      (apply .addu a b).1.toNat = 2 ^ width.bits - 1 ∧ (apply .addu a b).2 = true) ∧
    (a.toNat + b.toNat ≤ 2 ^ width.bits - 1 →
      (apply .addu a b).1.toNat = a.toNat + b.toNat ∧ (apply .addu a b).2 = false)

/-- MAXS, MINS, MAXU and MINU give the greater or the lesser under their reading, one of the two operands, never clamp, and
are commutative and associative (R93). -/
def Obligations.ComparisonsSelect : Prop :=
  ∀ (w : Nat) (a b c : BitVec w),
    (apply .maxs a b).1.toInt = max a.toInt b.toInt ∧ (apply .mins a b).1.toInt = min a.toInt b.toInt ∧
    (apply .maxu a b).1.toNat = max a.toNat b.toNat ∧ (apply .minu a b).1.toNat = min a.toNat b.toNat ∧
    ∀ op, op = .maxs ∨ op = .mins ∨ op = .maxu ∨ op = .minu →
      ((apply op a b).1 = a ∨ (apply op a b).1 = b) ∧ (apply op a b).2 = false ∧
      (apply op a b).1 = (apply op b a).1 ∧
      (apply op (apply op a b).1 c).1 = (apply op a (apply op b c).1).1

/-- AND, OR and XOR on a word are the bitwise operations at every width, never clamp, are commutative and associative; AND
and OR absorb a repeated operand, and XOR cancels one (R94). -/
def Obligations.BitwiseIgnoresWidth : Prop :=
  ∀ (width : Width) (x y z : Word),
    applyWord .and width x y = x &&& y ∧ applyWord .or width x y = x ||| y ∧ applyWord .xor width x y = x ^^^ y ∧
    applyWord .and width x x = x ∧ applyWord .or width x x = x ∧ applyWord .xor width x x = 0 ∧
    ∀ op, op = .and ∨ op = .or ∨ op = .xor →
      clampsWord op width x y = 0 ∧ applyWord op width x y = applyWord op width y x ∧
      applyWord op width (applyWord op width x y) z = applyWord op width x (applyWord op width y z)

/-- The order of a fold (R99, R101): under the eight operators that cannot clamp, neither the words nor the count depend on
it; under ADDU each result element is the exact total held at the top of the range, whatever the order, while the count
depends on it; under ADDS both depend on it. -/
def Obligations.FoldOrderMatters : Prop :=
  (∀ (op : Op) (width : Width) (ds es : List BurstData), op ≠ .adds → op ≠ .addu → ds.Perm es →
    foldSources op width ds = foldSources op width es) ∧
  (∀ (width : Width) (ds : List BurstData) (n : Fin 8) (j : Nat), ds ≠ [] → j < 64 / width.bits →
    (element width.bits j ((foldSources .addu width ds).1[n])).toNat =
      min ((ds.map fun d => (element width.bits j d[n]).toNat).sum) (2 ^ width.bits - 1)) ∧
  (∃ ds es : List BurstData, ds.Perm es ∧ (foldSources .addu .w8 ds).2 ≠ (foldSources .addu .w8 es).2) ∧
  (∃ ds es : List BurstData, ds.Perm es ∧ (foldSources .adds .w8 ds).1 ≠ (foldSources .adds .w8 es).1 ∧
    (foldSources .adds .w8 ds).2 ≠ (foldSources .adds .w8 es).2)

/-! ## Invariants that every step keeps -/

/-- Each queue's count of jobs is the number of its slots, each tag's count the number of slots whose job carries it, and
an ABORTING queue has a job in a slot (R30, R40, R45). None of the jobs of an ABORTING queue is ACTIVE or DRAINING (R39,
R41). -/
def Obligations.CountsKept : Prop :=
  (∀ s t : State, JobsCounted s → TagsCounted s → AbortingHasJobs s → step s = .next t →
    JobsCounted t ∧ TagsCounted t ∧ AbortingHasJobs t) ∧
  ∀ s t : State, AbortingJobsEnd s → step s = .next t → AbortingJobsEnd t

/-- A queue holds at most 32 commands with consecutive sequence numbers (R16, R23). It is FENCED only behind a WAIT,
STALLED only behind what stalls it, ABORTING only when empty, and has a halt reason exactly while HALTED (R24, R42). It is
STALLED(SLOT) only while no slot is FREE (R30, R31). The posting wait list is used to know which queues wait. -/
def Obligations.QueuesKept : Prop :=
  (∀ s t : State, QueuesOrdered s → step s = .next t → QueuesOrdered t) ∧
  ∀ s t : State, FifoSound s → QueuesSound s → step s = .next t →
    QueuesSound t ∧ (StalledOnlyWhenFull s → StalledOnlyWhenFull t)

/-- Every job record keeps its bounds and every slot state its meaning (R15, R61, R63, R66, R84, R96); every record in the
FIFO and the view keeps its form (R15, R161); a saturation count other than 0 belongs to an ACCUM or MERGE under ADDS or
ADDU (R97); every job carries the parts of its command, and the fields that they give (R61, R185). -/
def Obligations.JobRecordsKept : Prop :=
  (∀ s t : State, QueuesSound s → JobsSound s → RecordsSound s → step s = .next t → JobsSound t ∧ RecordsSound t) ∧
  (∀ s t : State, SaturationExplained s → step s = .next t → SaturationExplained t) ∧
  ∀ s t : State, CommandsCarried s → step s = .next t → CommandsCarried t

/-- The interlock table holds at most 16 entries with distinct keys, and each burst on the wait list has a key held by some
entry, or the table is full (R103, R107). No burst is twice on the wait list, every entry belongs to a burst past
LOCK_WAIT, and every burst in LOCK_WAIT is on the list (R103, R107). -/
def Obligations.InterlockKept : Prop :=
  (∀ s t : State, InterlockSound s → step s = .next t → InterlockSound t) ∧
  ∀ s t : State, QueuesSound s → JobsSound s → FifoSound s → InterlockSound s → LocksHeld s → LocksListed s →
    step s = .next t → LocksListed t

/-- Read-modify-write bursts past LOCK_WAIT hold an entry for their destination, so that no two of them have the same
destination burst (R69, R103, R105, R109). -/
def Obligations.DestinationsStayExclusive : Prop :=
  ∀ s t : State, QueuesSound s → JobsSound s → FifoSound s → InterlockSound s → LocksHeld s → step s = .next t →
    LocksHeld t ∧ DestinationsExclusive t

/-- Every BUSY ID belongs to exactly one burst in flight, which has sent its request, and every sent request has one
(R133); at most one offer stands, and a timer runs only for an accepted request (R131, R137, R139). -/
def Obligations.IdOwnershipKept : Prop :=
  (∀ s t : State, QueuesSound s → JobsSound s → FifoSound s → IdsOwned s → step s = .next t → IdsOwned t) ∧
  ∀ s t : State, OneOffer s → TimersAccepted s → step s = .next t → OneOffer t ∧ TimersAccepted t

/-- The FIFO holds at most 64 records, posters wait only while it holds 64, none twice, and each can post (R163, R165);
the threshold stays 1 to 64 (R173). -/
def Obligations.PostingKept : Prop :=
  (∀ s t : State, FifoSound s → step s = .next t → FifoSound t) ∧
  ∀ s t : State, ThresholdSound s → step s = .next t → ThresholdSound t

/-- Only BURST_WRITE_TAKE and WORD_WRITE_TAKE change the banks, no reset among the others (R6, R9); that no stored word
changes by itself is the model's reading (log entry 4). The bank contents keep their canonical form, which is the model's
own representation (log entry 3). -/
def Obligations.BanksChangedOnlyByWrites : Prop :=
  (∀ (c : Instr) (s t : State), exec c s = .next t → (∀ p, c ≠ .burstWriteTake p) → c ≠ .wordWriteTake →
    t.memory = s.memory) ∧
  ∀ s t : State, MemorySound s → step s = .next t → MemorySound t

/-- Every invariant holds in the state after reset. -/
def Obligations.ResetMeetsInvariants : Prop :=
  JobsCounted State.reset ∧ TagsCounted State.reset ∧ AbortingHasJobs State.reset ∧ AbortingJobsEnd State.reset ∧
  QueuesOrdered State.reset ∧ QueuesSound State.reset ∧ StalledOnlyWhenFull State.reset ∧ JobsSound State.reset ∧ RecordsSound State.reset ∧
  SaturationExplained State.reset ∧ CommandsCarried State.reset ∧ InterlockSound State.reset ∧ LocksHeld State.reset ∧
  LocksListed State.reset ∧ DestinationsExclusive State.reset ∧ IdsOwned State.reset ∧ OneOffer State.reset ∧
  TimersAccepted State.reset ∧ FifoSound State.reset ∧ MemorySound State.reset ∧ ThresholdSound State.reset ∧
  ResetHeld State.reset
end

