-- ==== Sys2Proof/Laws/State.lean ====
section
/-!
SUPPORT. The small lemmas of State: what each named update leaves of each field, and what each accessor reads after it.
-/

namespace Sys2Proof.Laws

open Sys2Proof.Machine

variable (s : State)

/-! ### setQueue -/

@[simp] theorem setQueue_pending (q : QueueId) (x : Queue) : (s.setQueue q x).pending = s.pending := rfl
@[simp] theorem setQueue_resetPin (q : QueueId) (x : Queue) : (s.setQueue q x).resetPin = s.resetPin := rfl
@[simp] theorem setQueue_host (q : QueueId) (x : Queue) : (s.setQueue q x).host = s.host := rfl
@[simp] theorem setQueue_slotPointer (q : QueueId) (x : Queue) : (s.setQueue q x).slotPointer = s.slotPointer := rfl
@[simp] theorem setQueue_tags (q : QueueId) (x : Queue) : (s.setQueue q x).tags = s.tags := rfl
@[simp] theorem setQueue_slots (q : QueueId) (x : Queue) : (s.setQueue q x).slots = s.slots := rfl
@[simp] theorem setQueue_interlock (q : QueueId) (x : Queue) : (s.setQueue q x).interlock = s.interlock := rfl
@[simp] theorem setQueue_segments (q : QueueId) (x : Queue) : (s.setQueue q x).segments = s.segments := rfl
@[simp] theorem setQueue_ext (q : QueueId) (x : Queue) : (s.setQueue q x).ext = s.ext := rfl
@[simp] theorem setQueue_bankPointers (q : QueueId) (x : Queue) : (s.setQueue q x).bankPointers = s.bankPointers := rfl
@[simp] theorem setQueue_memory (q : QueueId) (x : Queue) : (s.setQueue q x).memory = s.memory := rfl
@[simp] theorem setQueue_completion (q : QueueId) (x : Queue) : (s.setQueue q x).completion = s.completion := rfl
@[simp] theorem setQueue_interrupts (q : QueueId) (x : Queue) : (s.setQueue q x).interrupts = s.interrupts := rfl
@[simp] theorem tag_setQueue (q : QueueId) (x : Queue) (z : TagId) : (s.setQueue q x).tag z = s.tag z := rfl
@[simp] theorem slot_setQueue (q : QueueId) (x : Queue) (z : SlotId) : (s.setQueue q x).slot z = s.slot z := rfl
@[simp] theorem reqId_setQueue (q : QueueId) (x : Queue) (z : ReqId) : (s.setQueue q x).reqId z = s.reqId z := rfl
@[simp] theorem segment_setQueue (q : QueueId) (x : Queue) (z : SegIndex) : (s.setQueue q x).segment z = s.segment z := rfl
@[simp] theorem bankPointer_setQueue (q : QueueId) (x : Queue) (z : BankId) : (s.setQueue q x).bankPointer z = s.bankPointer z := rfl

/-! ### setTag -/

@[simp] theorem setTag_pending (t : TagId) (x : Tag) : (s.setTag t x).pending = s.pending := rfl
@[simp] theorem setTag_resetPin (t : TagId) (x : Tag) : (s.setTag t x).resetPin = s.resetPin := rfl
@[simp] theorem setTag_host (t : TagId) (x : Tag) : (s.setTag t x).host = s.host := rfl
@[simp] theorem setTag_queues (t : TagId) (x : Tag) : (s.setTag t x).queues = s.queues := rfl
@[simp] theorem setTag_slotPointer (t : TagId) (x : Tag) : (s.setTag t x).slotPointer = s.slotPointer := rfl
@[simp] theorem setTag_slots (t : TagId) (x : Tag) : (s.setTag t x).slots = s.slots := rfl
@[simp] theorem setTag_interlock (t : TagId) (x : Tag) : (s.setTag t x).interlock = s.interlock := rfl
@[simp] theorem setTag_segments (t : TagId) (x : Tag) : (s.setTag t x).segments = s.segments := rfl
@[simp] theorem setTag_ext (t : TagId) (x : Tag) : (s.setTag t x).ext = s.ext := rfl
@[simp] theorem setTag_bankPointers (t : TagId) (x : Tag) : (s.setTag t x).bankPointers = s.bankPointers := rfl
@[simp] theorem setTag_memory (t : TagId) (x : Tag) : (s.setTag t x).memory = s.memory := rfl
@[simp] theorem setTag_completion (t : TagId) (x : Tag) : (s.setTag t x).completion = s.completion := rfl
@[simp] theorem setTag_interrupts (t : TagId) (x : Tag) : (s.setTag t x).interrupts = s.interrupts := rfl
@[simp] theorem queue_setTag (t : TagId) (x : Tag) (z : QueueId) : (s.setTag t x).queue z = s.queue z := rfl
@[simp] theorem slot_setTag (t : TagId) (x : Tag) (z : SlotId) : (s.setTag t x).slot z = s.slot z := rfl
@[simp] theorem reqId_setTag (t : TagId) (x : Tag) (z : ReqId) : (s.setTag t x).reqId z = s.reqId z := rfl
@[simp] theorem segment_setTag (t : TagId) (x : Tag) (z : SegIndex) : (s.setTag t x).segment z = s.segment z := rfl
@[simp] theorem bankPointer_setTag (t : TagId) (x : Tag) (z : BankId) : (s.setTag t x).bankPointer z = s.bankPointer z := rfl

/-! ### setSlot -/

@[simp] theorem setSlot_pending (i : SlotId) (x : Option Job) : (s.setSlot i x).pending = s.pending := rfl
@[simp] theorem setSlot_resetPin (i : SlotId) (x : Option Job) : (s.setSlot i x).resetPin = s.resetPin := rfl
@[simp] theorem setSlot_host (i : SlotId) (x : Option Job) : (s.setSlot i x).host = s.host := rfl
@[simp] theorem setSlot_queues (i : SlotId) (x : Option Job) : (s.setSlot i x).queues = s.queues := rfl
@[simp] theorem setSlot_slotPointer (i : SlotId) (x : Option Job) : (s.setSlot i x).slotPointer = s.slotPointer := rfl
@[simp] theorem setSlot_tags (i : SlotId) (x : Option Job) : (s.setSlot i x).tags = s.tags := rfl
@[simp] theorem setSlot_interlock (i : SlotId) (x : Option Job) : (s.setSlot i x).interlock = s.interlock := rfl
@[simp] theorem setSlot_segments (i : SlotId) (x : Option Job) : (s.setSlot i x).segments = s.segments := rfl
@[simp] theorem setSlot_ext (i : SlotId) (x : Option Job) : (s.setSlot i x).ext = s.ext := rfl
@[simp] theorem setSlot_bankPointers (i : SlotId) (x : Option Job) : (s.setSlot i x).bankPointers = s.bankPointers := rfl
@[simp] theorem setSlot_memory (i : SlotId) (x : Option Job) : (s.setSlot i x).memory = s.memory := rfl
@[simp] theorem setSlot_completion (i : SlotId) (x : Option Job) : (s.setSlot i x).completion = s.completion := rfl
@[simp] theorem setSlot_interrupts (i : SlotId) (x : Option Job) : (s.setSlot i x).interrupts = s.interrupts := rfl
@[simp] theorem queue_setSlot (i : SlotId) (x : Option Job) (z : QueueId) : (s.setSlot i x).queue z = s.queue z := rfl
@[simp] theorem tag_setSlot (i : SlotId) (x : Option Job) (z : TagId) : (s.setSlot i x).tag z = s.tag z := rfl
@[simp] theorem reqId_setSlot (i : SlotId) (x : Option Job) (z : ReqId) : (s.setSlot i x).reqId z = s.reqId z := rfl
@[simp] theorem segment_setSlot (i : SlotId) (x : Option Job) (z : SegIndex) : (s.setSlot i x).segment z = s.segment z := rfl
@[simp] theorem bankPointer_setSlot (i : SlotId) (x : Option Job) (z : BankId) : (s.setSlot i x).bankPointer z = s.bankPointer z := rfl

/-! ### setReqId -/

@[simp] theorem setReqId_pending (d : ReqId) (x : IdState) : (s.setReqId d x).pending = s.pending := rfl
@[simp] theorem setReqId_resetPin (d : ReqId) (x : IdState) : (s.setReqId d x).resetPin = s.resetPin := rfl
@[simp] theorem setReqId_host (d : ReqId) (x : IdState) : (s.setReqId d x).host = s.host := rfl
@[simp] theorem setReqId_queues (d : ReqId) (x : IdState) : (s.setReqId d x).queues = s.queues := rfl
@[simp] theorem setReqId_slotPointer (d : ReqId) (x : IdState) : (s.setReqId d x).slotPointer = s.slotPointer := rfl
@[simp] theorem setReqId_tags (d : ReqId) (x : IdState) : (s.setReqId d x).tags = s.tags := rfl
@[simp] theorem setReqId_slots (d : ReqId) (x : IdState) : (s.setReqId d x).slots = s.slots := rfl
@[simp] theorem setReqId_interlock (d : ReqId) (x : IdState) : (s.setReqId d x).interlock = s.interlock := rfl
@[simp] theorem setReqId_segments (d : ReqId) (x : IdState) : (s.setReqId d x).segments = s.segments := rfl
@[simp] theorem setReqId_bankPointers (d : ReqId) (x : IdState) : (s.setReqId d x).bankPointers = s.bankPointers := rfl
@[simp] theorem setReqId_memory (d : ReqId) (x : IdState) : (s.setReqId d x).memory = s.memory := rfl
@[simp] theorem setReqId_completion (d : ReqId) (x : IdState) : (s.setReqId d x).completion = s.completion := rfl
@[simp] theorem setReqId_interrupts (d : ReqId) (x : IdState) : (s.setReqId d x).interrupts = s.interrupts := rfl
@[simp] theorem queue_setReqId (d : ReqId) (x : IdState) (z : QueueId) : (s.setReqId d x).queue z = s.queue z := rfl
@[simp] theorem tag_setReqId (d : ReqId) (x : IdState) (z : TagId) : (s.setReqId d x).tag z = s.tag z := rfl
@[simp] theorem slot_setReqId (d : ReqId) (x : IdState) (z : SlotId) : (s.setReqId d x).slot z = s.slot z := rfl
@[simp] theorem segment_setReqId (d : ReqId) (x : IdState) (z : SegIndex) : (s.setReqId d x).segment z = s.segment z := rfl
@[simp] theorem bankPointer_setReqId (d : ReqId) (x : IdState) (z : BankId) : (s.setReqId d x).bankPointer z = s.bankPointer z := rfl

/-! ### setSegment -/

@[simp] theorem setSegment_pending (m : SegIndex) (x : SegEntry) : (s.setSegment m x).pending = s.pending := rfl
@[simp] theorem setSegment_resetPin (m : SegIndex) (x : SegEntry) : (s.setSegment m x).resetPin = s.resetPin := rfl
@[simp] theorem setSegment_host (m : SegIndex) (x : SegEntry) : (s.setSegment m x).host = s.host := rfl
@[simp] theorem setSegment_queues (m : SegIndex) (x : SegEntry) : (s.setSegment m x).queues = s.queues := rfl
@[simp] theorem setSegment_slotPointer (m : SegIndex) (x : SegEntry) : (s.setSegment m x).slotPointer = s.slotPointer := rfl
@[simp] theorem setSegment_tags (m : SegIndex) (x : SegEntry) : (s.setSegment m x).tags = s.tags := rfl
@[simp] theorem setSegment_slots (m : SegIndex) (x : SegEntry) : (s.setSegment m x).slots = s.slots := rfl
@[simp] theorem setSegment_interlock (m : SegIndex) (x : SegEntry) : (s.setSegment m x).interlock = s.interlock := rfl
@[simp] theorem setSegment_ext (m : SegIndex) (x : SegEntry) : (s.setSegment m x).ext = s.ext := rfl
@[simp] theorem setSegment_bankPointers (m : SegIndex) (x : SegEntry) : (s.setSegment m x).bankPointers = s.bankPointers := rfl
@[simp] theorem setSegment_memory (m : SegIndex) (x : SegEntry) : (s.setSegment m x).memory = s.memory := rfl
@[simp] theorem setSegment_completion (m : SegIndex) (x : SegEntry) : (s.setSegment m x).completion = s.completion := rfl
@[simp] theorem setSegment_interrupts (m : SegIndex) (x : SegEntry) : (s.setSegment m x).interrupts = s.interrupts := rfl
@[simp] theorem queue_setSegment (m : SegIndex) (x : SegEntry) (z : QueueId) : (s.setSegment m x).queue z = s.queue z := rfl
@[simp] theorem tag_setSegment (m : SegIndex) (x : SegEntry) (z : TagId) : (s.setSegment m x).tag z = s.tag z := rfl
@[simp] theorem slot_setSegment (m : SegIndex) (x : SegEntry) (z : SlotId) : (s.setSegment m x).slot z = s.slot z := rfl
@[simp] theorem reqId_setSegment (m : SegIndex) (x : SegEntry) (z : ReqId) : (s.setSegment m x).reqId z = s.reqId z := rfl
@[simp] theorem bankPointer_setSegment (m : SegIndex) (x : SegEntry) (z : BankId) : (s.setSegment m x).bankPointer z = s.bankPointer z := rfl

/-! ### setBankPointer -/

@[simp] theorem setBankPointer_pending (p : BankId) (i : SlotId) : (s.setBankPointer p i).pending = s.pending := rfl
@[simp] theorem setBankPointer_resetPin (p : BankId) (i : SlotId) : (s.setBankPointer p i).resetPin = s.resetPin := rfl
@[simp] theorem setBankPointer_host (p : BankId) (i : SlotId) : (s.setBankPointer p i).host = s.host := rfl
@[simp] theorem setBankPointer_queues (p : BankId) (i : SlotId) : (s.setBankPointer p i).queues = s.queues := rfl
@[simp] theorem setBankPointer_slotPointer (p : BankId) (i : SlotId) : (s.setBankPointer p i).slotPointer = s.slotPointer := rfl
@[simp] theorem setBankPointer_tags (p : BankId) (i : SlotId) : (s.setBankPointer p i).tags = s.tags := rfl
@[simp] theorem setBankPointer_slots (p : BankId) (i : SlotId) : (s.setBankPointer p i).slots = s.slots := rfl
@[simp] theorem setBankPointer_interlock (p : BankId) (i : SlotId) : (s.setBankPointer p i).interlock = s.interlock := rfl
@[simp] theorem setBankPointer_segments (p : BankId) (i : SlotId) : (s.setBankPointer p i).segments = s.segments := rfl
@[simp] theorem setBankPointer_ext (p : BankId) (i : SlotId) : (s.setBankPointer p i).ext = s.ext := rfl
@[simp] theorem setBankPointer_memory (p : BankId) (i : SlotId) : (s.setBankPointer p i).memory = s.memory := rfl
@[simp] theorem setBankPointer_completion (p : BankId) (i : SlotId) : (s.setBankPointer p i).completion = s.completion := rfl
@[simp] theorem setBankPointer_interrupts (p : BankId) (i : SlotId) : (s.setBankPointer p i).interrupts = s.interrupts := rfl
@[simp] theorem queue_setBankPointer (p : BankId) (i : SlotId) (z : QueueId) : (s.setBankPointer p i).queue z = s.queue z := rfl
@[simp] theorem tag_setBankPointer (p : BankId) (i : SlotId) (z : TagId) : (s.setBankPointer p i).tag z = s.tag z := rfl
@[simp] theorem slot_setBankPointer (p : BankId) (i : SlotId) (z : SlotId) : (s.setBankPointer p i).slot z = s.slot z := rfl
@[simp] theorem reqId_setBankPointer (p : BankId) (i : SlotId) (z : ReqId) : (s.setBankPointer p i).reqId z = s.reqId z := rfl
@[simp] theorem segment_setBankPointer (p : BankId) (i : SlotId) (z : SegIndex) : (s.setBankPointer p i).segment z = s.segment z := rfl

/-! ### setInterlock -/

@[simp] theorem setInterlock_pending (x : Interlock) : (s.setInterlock x).pending = s.pending := rfl
@[simp] theorem setInterlock_resetPin (x : Interlock) : (s.setInterlock x).resetPin = s.resetPin := rfl
@[simp] theorem setInterlock_host (x : Interlock) : (s.setInterlock x).host = s.host := rfl
@[simp] theorem setInterlock_queues (x : Interlock) : (s.setInterlock x).queues = s.queues := rfl
@[simp] theorem setInterlock_slotPointer (x : Interlock) : (s.setInterlock x).slotPointer = s.slotPointer := rfl
@[simp] theorem setInterlock_tags (x : Interlock) : (s.setInterlock x).tags = s.tags := rfl
@[simp] theorem setInterlock_slots (x : Interlock) : (s.setInterlock x).slots = s.slots := rfl
@[simp] theorem setInterlock_segments (x : Interlock) : (s.setInterlock x).segments = s.segments := rfl
@[simp] theorem setInterlock_ext (x : Interlock) : (s.setInterlock x).ext = s.ext := rfl
@[simp] theorem setInterlock_bankPointers (x : Interlock) : (s.setInterlock x).bankPointers = s.bankPointers := rfl
@[simp] theorem setInterlock_memory (x : Interlock) : (s.setInterlock x).memory = s.memory := rfl
@[simp] theorem setInterlock_completion (x : Interlock) : (s.setInterlock x).completion = s.completion := rfl
@[simp] theorem setInterlock_interrupts (x : Interlock) : (s.setInterlock x).interrupts = s.interrupts := rfl
@[simp] theorem queue_setInterlock (x : Interlock) (z : QueueId) : (s.setInterlock x).queue z = s.queue z := rfl
@[simp] theorem tag_setInterlock (x : Interlock) (z : TagId) : (s.setInterlock x).tag z = s.tag z := rfl
@[simp] theorem slot_setInterlock (x : Interlock) (z : SlotId) : (s.setInterlock x).slot z = s.slot z := rfl
@[simp] theorem reqId_setInterlock (x : Interlock) (z : ReqId) : (s.setInterlock x).reqId z = s.reqId z := rfl
@[simp] theorem segment_setInterlock (x : Interlock) (z : SegIndex) : (s.setInterlock x).segment z = s.segment z := rfl
@[simp] theorem bankPointer_setInterlock (x : Interlock) (z : BankId) : (s.setInterlock x).bankPointer z = s.bankPointer z := rfl

/-! ### setCompletion -/

@[simp] theorem setCompletion_pending (x : Completion) : (s.setCompletion x).pending = s.pending := rfl
@[simp] theorem setCompletion_resetPin (x : Completion) : (s.setCompletion x).resetPin = s.resetPin := rfl
@[simp] theorem setCompletion_host (x : Completion) : (s.setCompletion x).host = s.host := rfl
@[simp] theorem setCompletion_queues (x : Completion) : (s.setCompletion x).queues = s.queues := rfl
@[simp] theorem setCompletion_slotPointer (x : Completion) : (s.setCompletion x).slotPointer = s.slotPointer := rfl
@[simp] theorem setCompletion_tags (x : Completion) : (s.setCompletion x).tags = s.tags := rfl
@[simp] theorem setCompletion_slots (x : Completion) : (s.setCompletion x).slots = s.slots := rfl
@[simp] theorem setCompletion_interlock (x : Completion) : (s.setCompletion x).interlock = s.interlock := rfl
@[simp] theorem setCompletion_segments (x : Completion) : (s.setCompletion x).segments = s.segments := rfl
@[simp] theorem setCompletion_ext (x : Completion) : (s.setCompletion x).ext = s.ext := rfl
@[simp] theorem setCompletion_bankPointers (x : Completion) : (s.setCompletion x).bankPointers = s.bankPointers := rfl
@[simp] theorem setCompletion_memory (x : Completion) : (s.setCompletion x).memory = s.memory := rfl
@[simp] theorem setCompletion_interrupts (x : Completion) : (s.setCompletion x).interrupts = s.interrupts := rfl
@[simp] theorem queue_setCompletion (x : Completion) (z : QueueId) : (s.setCompletion x).queue z = s.queue z := rfl
@[simp] theorem tag_setCompletion (x : Completion) (z : TagId) : (s.setCompletion x).tag z = s.tag z := rfl
@[simp] theorem slot_setCompletion (x : Completion) (z : SlotId) : (s.setCompletion x).slot z = s.slot z := rfl
@[simp] theorem reqId_setCompletion (x : Completion) (z : ReqId) : (s.setCompletion x).reqId z = s.reqId z := rfl
@[simp] theorem segment_setCompletion (x : Completion) (z : SegIndex) : (s.setCompletion x).segment z = s.segment z := rfl
@[simp] theorem bankPointer_setCompletion (x : Completion) (z : BankId) : (s.setCompletion x).bankPointer z = s.bankPointer z := rfl

/-! ### setInterrupts -/

@[simp] theorem setInterrupts_pending (x : Interrupts) : (s.setInterrupts x).pending = s.pending := rfl
@[simp] theorem setInterrupts_resetPin (x : Interrupts) : (s.setInterrupts x).resetPin = s.resetPin := rfl
@[simp] theorem setInterrupts_host (x : Interrupts) : (s.setInterrupts x).host = s.host := rfl
@[simp] theorem setInterrupts_queues (x : Interrupts) : (s.setInterrupts x).queues = s.queues := rfl
@[simp] theorem setInterrupts_slotPointer (x : Interrupts) : (s.setInterrupts x).slotPointer = s.slotPointer := rfl
@[simp] theorem setInterrupts_tags (x : Interrupts) : (s.setInterrupts x).tags = s.tags := rfl
@[simp] theorem setInterrupts_slots (x : Interrupts) : (s.setInterrupts x).slots = s.slots := rfl
@[simp] theorem setInterrupts_interlock (x : Interrupts) : (s.setInterrupts x).interlock = s.interlock := rfl
@[simp] theorem setInterrupts_segments (x : Interrupts) : (s.setInterrupts x).segments = s.segments := rfl
@[simp] theorem setInterrupts_ext (x : Interrupts) : (s.setInterrupts x).ext = s.ext := rfl
@[simp] theorem setInterrupts_bankPointers (x : Interrupts) : (s.setInterrupts x).bankPointers = s.bankPointers := rfl
@[simp] theorem setInterrupts_memory (x : Interrupts) : (s.setInterrupts x).memory = s.memory := rfl
@[simp] theorem setInterrupts_completion (x : Interrupts) : (s.setInterrupts x).completion = s.completion := rfl
@[simp] theorem queue_setInterrupts (x : Interrupts) (z : QueueId) : (s.setInterrupts x).queue z = s.queue z := rfl
@[simp] theorem tag_setInterrupts (x : Interrupts) (z : TagId) : (s.setInterrupts x).tag z = s.tag z := rfl
@[simp] theorem slot_setInterrupts (x : Interrupts) (z : SlotId) : (s.setInterrupts x).slot z = s.slot z := rfl
@[simp] theorem reqId_setInterrupts (x : Interrupts) (z : ReqId) : (s.setInterrupts x).reqId z = s.reqId z := rfl
@[simp] theorem segment_setInterrupts (x : Interrupts) (z : SegIndex) : (s.setInterrupts x).segment z = s.segment z := rfl
@[simp] theorem bankPointer_setInterrupts (x : Interrupts) (z : BankId) : (s.setInterrupts x).bankPointer z = s.bankPointer z := rfl

/-! ### An accessor after its own update -/

theorem queue_setQueue (a b : QueueId) (x : Queue) : (s.setQueue a x).queue b = if a = b then x else s.queue b := by
  simp only [State.queue, State.setQueue, Fin.getElem_fin, Vector.getElem_set, Fin.ext_iff]

@[simp] theorem queue_setQueue_self (a : QueueId) (x : Queue) : (s.setQueue a x).queue a = x := by
  simp [queue_setQueue]

theorem queue_setQueue_ne (a b : QueueId) (x : Queue) (h : a ≠ b) : (s.setQueue a x).queue b = s.queue b := by
  simp [queue_setQueue, h]

theorem tag_setTag (a b : TagId) (x : Tag) : (s.setTag a x).tag b = if a = b then x else s.tag b := by
  simp only [State.tag, State.setTag, Fin.getElem_fin, Vector.getElem_set, Fin.ext_iff]

@[simp] theorem tag_setTag_self (a : TagId) (x : Tag) : (s.setTag a x).tag a = x := by
  simp [tag_setTag]

theorem tag_setTag_ne (a b : TagId) (x : Tag) (h : a ≠ b) : (s.setTag a x).tag b = s.tag b := by
  simp [tag_setTag, h]

theorem slot_setSlot (a b : SlotId) (x : Option Job) : (s.setSlot a x).slot b = if a = b then x else s.slot b := by
  simp only [State.slot, State.setSlot, Fin.getElem_fin, Vector.getElem_set, Fin.ext_iff]

@[simp] theorem slot_setSlot_self (a : SlotId) (x : Option Job) : (s.setSlot a x).slot a = x := by
  simp [slot_setSlot]

theorem slot_setSlot_ne (a b : SlotId) (x : Option Job) (h : a ≠ b) : (s.setSlot a x).slot b = s.slot b := by
  simp [slot_setSlot, h]

theorem reqId_setReqId (a b : ReqId) (x : IdState) : (s.setReqId a x).reqId b = if a = b then x else s.reqId b := by
  simp only [State.reqId, State.setReqId, Fin.getElem_fin, Vector.getElem_set, Fin.ext_iff]

@[simp] theorem reqId_setReqId_self (a : ReqId) (x : IdState) : (s.setReqId a x).reqId a = x := by
  simp [reqId_setReqId]

theorem reqId_setReqId_ne (a b : ReqId) (x : IdState) (h : a ≠ b) : (s.setReqId a x).reqId b = s.reqId b := by
  simp [reqId_setReqId, h]

theorem segment_setSegment (a b : SegIndex) (x : SegEntry) : (s.setSegment a x).segment b = if a = b then x else s.segment b := by
  simp only [State.segment, State.setSegment, Fin.getElem_fin, Vector.getElem_set, Fin.ext_iff]

@[simp] theorem segment_setSegment_self (a : SegIndex) (x : SegEntry) : (s.setSegment a x).segment a = x := by
  simp [segment_setSegment]

theorem segment_setSegment_ne (a b : SegIndex) (x : SegEntry) (h : a ≠ b) : (s.setSegment a x).segment b = s.segment b := by
  simp [segment_setSegment, h]

theorem bankPointer_setBankPointer (a b : BankId) (x : SlotId) : (s.setBankPointer a x).bankPointer b = if a = b then x else s.bankPointer b := by
  simp only [State.bankPointer, State.setBankPointer, Fin.getElem_fin, Vector.getElem_set, Fin.ext_iff]

@[simp] theorem bankPointer_setBankPointer_self (a : BankId) (x : SlotId) : (s.setBankPointer a x).bankPointer a = x := by
  simp [bankPointer_setBankPointer]

theorem bankPointer_setBankPointer_ne (a b : BankId) (x : SlotId) (h : a ≠ b) : (s.setBankPointer a x).bankPointer b = s.bankPointer b := by
  simp [bankPointer_setBankPointer, h]

/-! ### The field an update sets -/

@[simp] theorem setInterlock_interlock (x : Interlock) : (s.setInterlock x).interlock = x := rfl
@[simp] theorem setCompletion_completion (x : Completion) : (s.setCompletion x).completion = x := rfl
@[simp] theorem setInterrupts_interrupts (x : Interrupts) : (s.setInterrupts x).interrupts = x := rfl

@[simp] theorem setReqId_pointer (d : ReqId) (x : IdState) : (s.setReqId d x).ext.pointer = s.ext.pointer := rfl
@[simp] theorem setReqId_xsize (d : ReqId) (x : IdState) : (s.setReqId d x).ext.xsize = s.ext.xsize := rfl
@[simp] theorem setReqId_xtimeout (d : ReqId) (x : IdState) : (s.setReqId d x).ext.xtimeout = s.ext.xtimeout := rfl

/-! ### modQueue and modJob -/

@[simp] theorem modQueue_pending (q : QueueId) (f : Queue → Queue) : (s.modQueue q f).pending = s.pending := rfl
@[simp] theorem modQueue_resetPin (q : QueueId) (f : Queue → Queue) : (s.modQueue q f).resetPin = s.resetPin := rfl
@[simp] theorem modQueue_host (q : QueueId) (f : Queue → Queue) : (s.modQueue q f).host = s.host := rfl
@[simp] theorem modQueue_slotPointer (q : QueueId) (f : Queue → Queue) : (s.modQueue q f).slotPointer = s.slotPointer := rfl
@[simp] theorem modQueue_tags (q : QueueId) (f : Queue → Queue) : (s.modQueue q f).tags = s.tags := rfl
@[simp] theorem modQueue_slots (q : QueueId) (f : Queue → Queue) : (s.modQueue q f).slots = s.slots := rfl
@[simp] theorem modQueue_interlock (q : QueueId) (f : Queue → Queue) : (s.modQueue q f).interlock = s.interlock := rfl
@[simp] theorem modQueue_segments (q : QueueId) (f : Queue → Queue) : (s.modQueue q f).segments = s.segments := rfl
@[simp] theorem modQueue_ext (q : QueueId) (f : Queue → Queue) : (s.modQueue q f).ext = s.ext := rfl
@[simp] theorem modQueue_bankPointers (q : QueueId) (f : Queue → Queue) : (s.modQueue q f).bankPointers = s.bankPointers := rfl
@[simp] theorem modQueue_memory (q : QueueId) (f : Queue → Queue) : (s.modQueue q f).memory = s.memory := rfl
@[simp] theorem modQueue_completion (q : QueueId) (f : Queue → Queue) : (s.modQueue q f).completion = s.completion := rfl
@[simp] theorem modQueue_interrupts (q : QueueId) (f : Queue → Queue) : (s.modQueue q f).interrupts = s.interrupts := rfl
@[simp] theorem tag_modQueue (q : QueueId) (f : Queue → Queue) (z : TagId) : (s.modQueue q f).tag z = s.tag z := rfl
@[simp] theorem slot_modQueue (q : QueueId) (f : Queue → Queue) (z : SlotId) : (s.modQueue q f).slot z = s.slot z := rfl
@[simp] theorem reqId_modQueue (q : QueueId) (f : Queue → Queue) (z : ReqId) : (s.modQueue q f).reqId z = s.reqId z := rfl
@[simp] theorem segment_modQueue (q : QueueId) (f : Queue → Queue) (z : SegIndex) : (s.modQueue q f).segment z = s.segment z := rfl
@[simp] theorem bankPointer_modQueue (q : QueueId) (f : Queue → Queue) (z : BankId) : (s.modQueue q f).bankPointer z = s.bankPointer z := rfl

theorem queue_modQueue (q p : QueueId) (f : Queue → Queue) :
    (s.modQueue q f).queue p = if q = p then f (s.queue q) else s.queue p := by
  simp [State.modQueue, queue_setQueue]

@[simp] theorem queue_modQueue_self (q : QueueId) (f : Queue → Queue) : (s.modQueue q f).queue q = f (s.queue q) := by
  simp [queue_modQueue]

theorem queue_modQueue_ne (q p : QueueId) (f : Queue → Queue) (h : q ≠ p) : (s.modQueue q f).queue p = s.queue p := by
  simp [queue_modQueue, h]

@[simp] theorem modJob_pending (i : SlotId) (f : Job → Job) : (s.modJob i f).pending = s.pending := by
  unfold State.modJob; split <;> rfl
@[simp] theorem modJob_resetPin (i : SlotId) (f : Job → Job) : (s.modJob i f).resetPin = s.resetPin := by
  unfold State.modJob; split <;> rfl
@[simp] theorem modJob_host (i : SlotId) (f : Job → Job) : (s.modJob i f).host = s.host := by
  unfold State.modJob; split <;> rfl
@[simp] theorem modJob_queues (i : SlotId) (f : Job → Job) : (s.modJob i f).queues = s.queues := by
  unfold State.modJob; split <;> rfl
@[simp] theorem modJob_slotPointer (i : SlotId) (f : Job → Job) : (s.modJob i f).slotPointer = s.slotPointer := by
  unfold State.modJob; split <;> rfl
@[simp] theorem modJob_tags (i : SlotId) (f : Job → Job) : (s.modJob i f).tags = s.tags := by
  unfold State.modJob; split <;> rfl
@[simp] theorem modJob_interlock (i : SlotId) (f : Job → Job) : (s.modJob i f).interlock = s.interlock := by
  unfold State.modJob; split <;> rfl
@[simp] theorem modJob_segments (i : SlotId) (f : Job → Job) : (s.modJob i f).segments = s.segments := by
  unfold State.modJob; split <;> rfl
@[simp] theorem modJob_ext (i : SlotId) (f : Job → Job) : (s.modJob i f).ext = s.ext := by
  unfold State.modJob; split <;> rfl
@[simp] theorem modJob_bankPointers (i : SlotId) (f : Job → Job) : (s.modJob i f).bankPointers = s.bankPointers := by
  unfold State.modJob; split <;> rfl
@[simp] theorem modJob_memory (i : SlotId) (f : Job → Job) : (s.modJob i f).memory = s.memory := by
  unfold State.modJob; split <;> rfl
@[simp] theorem modJob_completion (i : SlotId) (f : Job → Job) : (s.modJob i f).completion = s.completion := by
  unfold State.modJob; split <;> rfl
@[simp] theorem modJob_interrupts (i : SlotId) (f : Job → Job) : (s.modJob i f).interrupts = s.interrupts := by
  unfold State.modJob; split <;> rfl
@[simp] theorem queue_modJob (i : SlotId) (f : Job → Job) (z : QueueId) : (s.modJob i f).queue z = s.queue z := by
  unfold State.modJob; split <;> rfl
@[simp] theorem tag_modJob (i : SlotId) (f : Job → Job) (z : TagId) : (s.modJob i f).tag z = s.tag z := by
  unfold State.modJob; split <;> rfl
@[simp] theorem reqId_modJob (i : SlotId) (f : Job → Job) (z : ReqId) : (s.modJob i f).reqId z = s.reqId z := by
  unfold State.modJob; split <;> rfl
@[simp] theorem segment_modJob (i : SlotId) (f : Job → Job) (z : SegIndex) : (s.modJob i f).segment z = s.segment z := by
  unfold State.modJob; split <;> rfl
@[simp] theorem bankPointer_modJob (i : SlotId) (f : Job → Job) (z : BankId) : (s.modJob i f).bankPointer z = s.bankPointer z := by
  unfold State.modJob; split <;> rfl

theorem slot_modJob (i k : SlotId) (f : Job → Job) :
    (s.modJob i f).slot k = if i = k then (s.slot k).map f else s.slot k := by
  unfold State.modJob
  split <;> rename_i h
  · by_cases e : i = k
    · subst e; simp [h]
    · simp [e]
  · by_cases e : i = k
    · subst e; simp [h]
    · simp [e, slot_setSlot]

@[simp] theorem slot_modJob_self (i : SlotId) (f : Job → Job) : (s.modJob i f).slot i = (s.slot i).map f := by
  simp [slot_modJob]

theorem slot_modJob_ne (i k : SlotId) (f : Job → Job) (h : i ≠ k) : (s.modJob i f).slot k = s.slot k := by
  simp [slot_modJob, h]

/-! ### The pending commands -/

@[simp] theorem withPending_pending (r : List Instr) : (s.withPending r).pending = r := rfl
@[simp] theorem withPending_resetPin (r : List Instr) : (s.withPending r).resetPin = s.resetPin := rfl
@[simp] theorem withPending_host (r : List Instr) : (s.withPending r).host = s.host := rfl
@[simp] theorem withPending_queues (r : List Instr) : (s.withPending r).queues = s.queues := rfl
@[simp] theorem withPending_slotPointer (r : List Instr) : (s.withPending r).slotPointer = s.slotPointer := rfl
@[simp] theorem withPending_tags (r : List Instr) : (s.withPending r).tags = s.tags := rfl
@[simp] theorem withPending_slots (r : List Instr) : (s.withPending r).slots = s.slots := rfl
@[simp] theorem withPending_interlock (r : List Instr) : (s.withPending r).interlock = s.interlock := rfl
@[simp] theorem withPending_segments (r : List Instr) : (s.withPending r).segments = s.segments := rfl
@[simp] theorem withPending_ext (r : List Instr) : (s.withPending r).ext = s.ext := rfl
@[simp] theorem withPending_bankPointers (r : List Instr) : (s.withPending r).bankPointers = s.bankPointers := rfl
@[simp] theorem withPending_memory (r : List Instr) : (s.withPending r).memory = s.memory := rfl
@[simp] theorem withPending_completion (r : List Instr) : (s.withPending r).completion = s.completion := rfl
@[simp] theorem withPending_interrupts (r : List Instr) : (s.withPending r).interrupts = s.interrupts := rfl

end Sys2Proof.Laws
end

