-- ==== Sys2Proof/Laws/Operations.lean ====
section
/-!
SUPPORT. What the shared operations do, said once: the host port, the fence, the first-free searches, the drains, slot
grant and free, the arbiters, the interlock's scan, and the fields of a value shown.
-/

namespace Sys2Proof.Laws

open Sys2Proof.Machine Sys2Proof.Safety

/-! ### Host port -/

theorem hostWrite_of_free {s : State} (h : HostPortFree s) (f : State → State) : s.hostWrite f = f s := by
  simp [State.hostWrite, State.busFree, h.1, h.2]

theorem hostReadAccess_of_free {s : State} (h : HostPortFree s) (f : State → State) : s.hostReadAccess f = f s := by
  simp [State.hostReadAccess, State.busFree, h.1, h.2]

theorem hostWrite_of_reset {s : State} (h : s.resetPin = true) (f : State → State) : s.hostWrite f = s := by
  simp [State.hostWrite, h]

/-! ### Searches over a finite range -/

theorem find_first {n : Nat} {p : Fin n → Bool} {i : Fin n} (hi : p i = true) (hk : ∀ k, k < i → p k = false) :
    (List.finRange n).find? p = some i := by
  rw [List.find?_eq_some_iff_getElem]
  refine ⟨hi, i.val, by simp, by simp, fun j hj => ?_⟩
  simp [hk ⟨j, by omega⟩ (by simpa [Fin.lt_def] using hj)]

theorem find_none {n : Nat} {p : Fin n → Bool} (hk : ∀ k, p k = false) : (List.finRange n).find? p = none := by
  simp [List.find?_eq_none, hk]

theorem isFree_iff (x : IdState) : x.isFree = true ↔ x = .free := by
  cases x <;> simp [IdState.isFree]

theorem standingOffer_eq_none {s : State} (h : ∀ e, (s.reqId e).isOffered = false) : s.standingOffer = none :=
  find_none h

theorem standingOffer_eq_some {s : State} (h : OneOffer s) {d : ReqId} (hd : (s.reqId d).isOffered = true) :
    s.standingOffer = some d := by
  unfold State.standingOffer
  cases hf : (List.finRange 16).find? fun d => (s.reqId d).isOffered with
  | none =>
    rw [List.find?_eq_none] at hf
    exact absurd hd (hf d (List.mem_finRange d))
  | some e => rw [h e d (by simpa using List.find?_some hf) hd]

/-! ### Fences -/

theorem fenceSatisfied_iff (s : State) (mask : Half) :
    s.fenceSatisfied mask = true ↔ ∀ t : TagId, mask.getLsbD t = true → (s.tag t).count = 0 := by
  simp only [State.fenceSatisfied, maskNames, List.all_eq_true, List.mem_finRange, true_implies, Bool.or_eq_true,
    Bool.not_eq_true', beq_iff_eq]
  exact forall_congr' fun t => by cases mask.getLsbD t <;> simp

theorem fencePoisoned_iff (s : State) (mask : Half) :
    s.fencePoisoned mask = true ↔ ∃ t : TagId, mask.getLsbD t = true ∧ (s.tag t).poison = true := by
  simp only [State.fencePoisoned, maskNames, List.any_eq_true, List.mem_finRange, true_and, Bool.and_eq_true]

/-! ### Drains -/

theorem drainQueue_tag (t : TagId) (s : State) (q : QueueId) (x : TagId) : (s.drainQueue t q).tag x = s.tag x := by
  unfold State.drainQueue State.evaluateFence State.haltQueue State.modQueue
  split <;> (try rfl); split <;> (try rfl); split <;> (try rfl); split <;> rfl

theorem drainQueue_other (t : TagId) (s : State) {q r : QueueId} (h : q ≠ r) :
    (s.drainQueue t q).queue r = s.queue r := by
  unfold State.drainQueue State.evaluateFence State.haltQueue State.modQueue
  split <;> (try rfl); split <;> (try rfl); split <;> (try split) <;> simp [queue_setQueue, h]

theorem drainQueue_halt_cause (t : TagId) (s : State) (q : QueueId) (h : s.interrupts.halt = true) :
    (s.drainQueue t q).interrupts.halt = true := by
  unfold State.drainQueue State.evaluateFence State.haltQueue State.modQueue
  split <;> (try exact h); split <;> (try exact h); split <;> (try split) <;> simp [h]

theorem foldl_drainQueue_tag (t : TagId) (l : List QueueId) (s : State) (x : TagId) :
    (l.foldl (State.drainQueue t) s).tag x = s.tag x := by
  induction l generalizing s with
  | nil => rfl
  | cons q l ih => rw [List.foldl_cons, ih, drainQueue_tag]

theorem foldl_drainQueue_other (t : TagId) (l : List QueueId) (s : State) {r : QueueId} (h : r ∉ l) :
    (l.foldl (State.drainQueue t) s).queue r = s.queue r := by
  induction l generalizing s with
  | nil => rfl
  | cons q l ih =>
    rw [List.mem_cons, not_or] at h
    rw [List.foldl_cons, ih _ h.2, drainQueue_other t s (Ne.symm h.1)]

theorem foldl_drainQueue_halt_cause (t : TagId) (l : List QueueId) (s : State) (h : s.interrupts.halt = true) :
    (l.foldl (State.drainQueue t) s).interrupts.halt = true := by
  induction l generalizing s with
  | nil => exact h
  | cons q l ih => exact ih _ (drainQueue_halt_cause t s q h)

/-! ### No queue waits for a slot -/

/-- No queue is on the slot arbiter's list. -/
def NoneStalled (s : State) : Prop := ∀ q, (s.queue q).state ≠ .stalledSlot

theorem noneStalled_modQueue {s : State} (h : NoneStalled s) (q : QueueId) (f : Queue → Queue)
    (hf : (f (s.queue q)).state ≠ .stalledSlot) : NoneStalled (s.modQueue q f) := by
  intro r
  rw [queue_modQueue]
  split
  · subst_vars
    exact hf
  · exact h r

theorem noneStalled_evaluateFence {s : State} (h : NoneStalled s) (q : QueueId) (c : HeldCommand) :
    NoneStalled (s.evaluateFence q c) := by
  unfold State.evaluateFence
  split
  · split
    · exact noneStalled_modQueue h q (fun x => { x with state := .halted, halt := _ }) (by simp)
    · exact noneStalled_modQueue h q _ (by simp [Queue.withState])
  · exact noneStalled_modQueue h q _ (by simp [Queue.withState])

theorem noneStalled_drainQueue {s : State} (h : NoneStalled s) (t : TagId) (q : QueueId) :
    NoneStalled (s.drainQueue t q) := by
  unfold State.drainQueue
  split
  · split
    · exact noneStalled_evaluateFence h q _
    · exact h
  · exact h

theorem noneStalled_releaseTag {s : State} (h : NoneStalled s) (t : TagId) (bad : Bool) :
    NoneStalled (s.releaseTag t bad) := by
  have fold : ∀ (l : List QueueId) (u : State), NoneStalled u → NoneStalled (l.foldl (State.drainQueue t) u) := by
    intro l
    induction l with
    | nil => exact fun u hu => hu
    | cons q l ih => exact fun u hu => ih _ (noneStalled_drainQueue hu t q)
  unfold State.releaseTag
  simp only
  split
  · exact fold _ _ h
  · exact h

theorem grantSlot_of_noneStalled {s : State} (h : NoneStalled s) (i : SlotId) : s.grantSlot i = s := by
  have : (queuesAfter s.slotPointer).findSome? s.slotWaiter = none := by
    rw [List.findSome?_eq_none_iff]
    intro q _
    simp only [State.slotWaiter]
    split
    · rename_i hq _
      exact absurd hq (h q)
    · rfl
  simp [State.grantSlot, this]

/-! ### Job records in slots -/

@[simp] theorem setSlot_setSlot (s : State) (i : SlotId) (x y : Option Job) :
    (s.setSlot i x).setSlot i y = s.setSlot i y := by
  simp [State.setSlot]

@[simp] theorem modJob_setSlot (s : State) (i : SlotId) (j : Job) (f : Job → Job) :
    (s.setSlot i (some j)).modJob i f = s.setSlot i (some (f j)) := by
  simp [State.modJob]

theorem releaseEntry_of_none {s : State} {i : SlotId} {n : Nat} (h : s.holdsEntry i n = false) :
    s.releaseEntry i n = s := by
  simp [State.releaseEntry, h]

/-- Putting a burst back does not bring back a burst that is then removed. -/
theorem filter_putBurst (j : Job) (c : Burst) :
    ((j.putBurst c).bursts.filter fun b => b.index ≠ c.index) = j.bursts.filter fun b => b.index ≠ c.index := by
  simp only [Job.putBurst]
  induction j.bursts with
  | nil => rfl
  | cons x l ih =>
    simp only [List.map_cons, List.filter_cons]
    by_cases hx : x.index = c.index
    · simp only [hx, if_true, ne_eq, not_true_eq_false, decide_false, Bool.false_eq_true, if_false] at ih ⊢
      exact ih
    · simp only [hx, if_false, ne_eq, not_false_eq_true, decide_true, if_true] at ih ⊢
      rw [ih]

/-! ### Arbiters -/

theorem lowestBurst_mem {l : List Burst} {b : Burst} (h : lowestBurst l = some b) : b ∈ l := by
  induction l generalizing b with
  | nil => cases h
  | cons a l ih =>
    simp only [lowestBurst] at h
    split at h
    · cases h
      exact List.mem_cons_self
    · rename_i c hc
      split at h
      · cases h
        exact List.mem_cons_self
      · cases h
        exact List.mem_cons_of_mem _ (ih hc)

/-- What an arbiter chooses is a burst in flight that wants it. -/
theorem arbitrate_sound {s : State} {wants : Burst → Bool} {p i : SlotId} {j : Job} {b : Burst}
    (h : s.arbitrate wants p = some (i, j, b)) : s.slot i = some j ∧ b ∈ j.bursts ∧ wants b = true := by
  unfold State.arbitrate at h
  split at h
  · cases h
  · split at h
    · cases h
    · rename_i hj
      split at h
      · cases h
      · rename_i hb
        cases h
        have := List.mem_filter.1 (lowestBurst_mem hb)
        exact ⟨hj, this.1, this.2⟩

theorem bankChoice_sound {s : State} {p : BankId} {i : SlotId} {j : Job} {b : Burst}
    (h : s.bankChoice p = some (i, j, b)) : s.slot i = some j ∧ b ∈ j.bursts ∧ b.waitsAtBank p = true := by
  unfold State.bankChoice at h
  split at h
  · cases h
  · exact arbitrate_sound h

/-! ### Interlock -/

theorem held_iff (l : Interlock) (k : Place) : l.held k = true ↔ ∃ e ∈ l.table, e.key = k := by
  simp [Interlock.held]

theorem grants_of_held {l : Interlock} {k : Place} (h : l.held k = true) : l.grants k = false := by
  simp [Interlock.grants, h]

theorem grants_of_full {l : Interlock} {k : Place} (h : 16 ≤ l.table.length) : l.grants k = false := by
  have : ¬l.table.length < Config.lockEntries := Nat.not_lt.2 h
  simp [Interlock.grants, this]

/-- A scan over waiters of whom none can be granted changes nothing. -/
theorem scan_of_blocked (l : List LockRequest) (s : State) (h : ∀ w ∈ l, s.interlock.grants w.key = false) :
    l.foldl State.scanWaiter s = s := by
  induction l with
  | nil => rfl
  | cons w l ih =>
    have : s.scanWaiter w = s := by simp [State.scanWaiter, h w List.mem_cons_self]
    rw [List.foldl_cons, this]
    exact ih fun x hx => h x (List.mem_cons_of_mem _ hx)

/-! ### Fields of a value shown -/

theorem showField_bit {n lo w i : Nat} (hi : i < 32) (hlo : lo ≤ i) :
    (showField lo w n).getLsbD i = (decide (i < lo + w) && n.testBit (i - lo)) := by
  simp only [showField, BitVec.getLsbD_ofNat, ← Nat.shiftLeft_eq, Nat.testBit_shiftLeft, Nat.testBit_mod_two_pow, hi,
    decide_true, Bool.true_and, ge_iff_le, hlo]
  by_cases h : i < lo + w
  · simp only [h, decide_true, Bool.true_and, Bool.and_eq_right_iff_imp, decide_eq_true_eq]
    omega
  · simp only [h, decide_false, Bool.false_and, Bool.and_eq_false_imp, decide_eq_true_eq]
    omega

theorem showField_below {n lo w i : Nat} (h : i < lo) : (showField lo w n).getLsbD i = false := by
  simp only [showField, BitVec.getLsbD_ofNat, ← Nat.shiftLeft_eq, Nat.testBit_shiftLeft, ge_iff_le]
  simp [Nat.not_le.2 h]

theorem showField_above {n lo w i : Nat} (h : lo + w ≤ i) : (showField lo w n).getLsbD i = false := by
  simp only [showField, BitVec.getLsbD_ofNat, ← Nat.shiftLeft_eq, Nat.testBit_shiftLeft, Nat.testBit_mod_two_pow]
  have : ¬i - lo < w := by omega
  simp [this]

/-- A field is read back at its place. -/
theorem extract_showField_self {n lo w : Nat} (h : lo + w ≤ 32) :
    (showField lo w n).extractLsb' lo w = BitVec.ofNat w n := by
  apply BitVec.eq_of_getLsbD_eq
  intro i hi
  rw [BitVec.getLsbD_extractLsb', showField_bit (by omega) (by omega), BitVec.getLsbD_ofNat]
  simp [hi]

/-- A field leaves every other place 0. -/
theorem extract_showField_other {n lo w a b : Nat} (h : a + b ≤ lo ∨ lo + w ≤ a) :
    (showField lo w n).extractLsb' a b = 0 := by
  apply BitVec.eq_of_getLsbD_eq
  intro i hi
  rw [BitVec.getLsbD_extractLsb']
  rcases h with h | h
  · rw [showField_below (by omega)]
    simp
  · rw [showField_above (by omega)]
    simp

end Sys2Proof.Laws
end

