-- ==== Sys2Proof/Laws/Bursts.lean ====
section
/-!
SUPPORT. The ends of bursts and jobs, said once: what a release does to the job records, the end of a burst, a discarded
read, the finish by its tables, and the free of a slot; and what the request channel shows.
-/

namespace Sys2Proof.Laws

open Sys2Proof.Machine Sys2Proof.Safety

/-! ### A release leaves every job record but for burst contexts -/

/-- The second slot holds the first's job, with as many burst contexts. -/
def SameJob (x y : Option Job) : Prop :=
  (x = none → y = none) ∧ ∀ j, x = some j → ∃ l, y = some { j with bursts := l } ∧ l.length = j.bursts.length

theorem SameJob.refl (x : Option Job) : SameJob x x := ⟨id, fun j h => ⟨j.bursts, h, rfl⟩⟩

theorem SameJob.trans {x y z : Option Job} (h : SameJob x y) (k : SameJob y z) : SameJob x z := by
  refine ⟨fun hx => k.1 (h.1 hx), fun j hj => ?_⟩
  obtain ⟨l, hy, hl⟩ := h.2 j hj
  obtain ⟨m, hz, hm⟩ := k.2 _ hy
  exact ⟨m, hz, hm.trans hl⟩

theorem slot_modJob_same (s : State) (i x : SlotId) (n : Nat) :
    SameJob (s.slot x) ((s.modJob i fun j => j.startReading n).slot x) := by
  unfold State.modJob
  split
  · exact .refl _
  · rename_i j hj
    by_cases hx : i = x
    · subst hx
      rw [slot_setSlot_self]
      refine ⟨fun h => (by rw [hj] at h; cases h), fun k hk => ?_⟩
      rw [hj] at hk
      cases hk
      exact ⟨_, rfl, List.length_map _⟩
    · rw [slot_setSlot_ne s i x _ hx]
      exact .refl _

theorem slot_scanWaiter_same (s : State) (w : LockRequest) (x : SlotId) :
    SameJob (s.slot x) ((s.scanWaiter w).slot x) := by
  unfold State.scanWaiter
  split
  · have := slot_modJob_same (s.setInterlock
      { table := s.interlock.table ++ [w], waiters := s.interlock.waiters.filter (· ≠ w) }) w.slot x w.burst
    exact this
  · exact .refl _

theorem slot_foldl_scanWaiter_same (l : List LockRequest) (s : State) (x : SlotId) :
    SameJob (s.slot x) ((l.foldl State.scanWaiter s).slot x) := by
  induction l generalizing s with
  | nil => exact .refl _
  | cons w l ih => exact (slot_scanWaiter_same s w x).trans (ih _)

theorem slot_releaseEntry_same (s : State) (i x : SlotId) (n : Nat) :
    SameJob (s.slot x) ((s.releaseEntry i n).slot x) := by
  unfold State.releaseEntry
  split
  · have := slot_foldl_scanWaiter_same s.interlock.waiters (s.setInterlock
      { s.interlock with table := s.interlock.table.filter fun e => !e.ownedBy i n }) x
    exact this
  · exact .refl _

/-! ### The end of a burst -/

theorem isOver_iff (j : Job) : j.isOver = true ↔ j.bursts = [] ∧ (j.state = .draining ∨ j.state = .ending) := by
  simp [Job.isOver, and_comm]

theorem finishIfOver_releaseEntry (s : State) (i : SlotId) (k : Job) (n : Nat) :
    ((s.setSlot i (some k)).releaseEntry i n).finishIfOver i =
      if k.bursts = [] ∧ (k.state = .draining ∨ k.state = .ending) then
        ((s.setSlot i (some k)).releaseEntry i n).finishJob i k
      else (s.setSlot i (some k)).releaseEntry i n := by
  obtain ⟨l, hl, hn⟩ := (slot_releaseEntry_same (s.setSlot i (some k)) i i n).2 k (slot_setSlot_self _ _ _)
  unfold State.finishIfOver
  rw [hl]
  by_cases hk : k.bursts = []
  · have : l = k.bursts := by rw [hk] at hn ⊢; exact List.length_eq_zero_iff.1 hn
    subst this
    show (if k.isOver = true then _ else _) = _
    simp only [isOver_iff]
  · have : l ≠ [] := fun h => hk (by rw [h] at hn; exact List.length_eq_zero_iff.1 hn.symm)
    simp only [isOver_iff, this, hk, false_and, if_false]

/-- A burst that ends uncounted. -/
theorem endBurst_eq (s : State) (i : SlotId) (j : Job) (n : Nat) :
    (s.setSlot i (some j)).endBurst i n = afterBurst s i j n := by
  simp only [State.endBurst, State.removeBurst, modJob_setSlot, finishIfOver_releaseEntry, afterBurst]

/-- A burst that ends well. -/
theorem endBurstWell_eq (s : State) (i : SlotId) (j : Job) (n : Nat) :
    (s.setSlot i (some j)).endBurstWell i n = afterBurst s i { j with done := j.done + 1 } n := by
  rw [State.endBurstWell, modJob_setSlot, endBurst_eq]

theorem afterBurst_putBurst (s : State) (i : SlotId) (j : Job) (c : Burst) :
    afterBurst s i (j.putBurst c) c.index = afterBurst s i j c.index := by
  simp only [afterBurst, filter_putBurst]
  rfl

theorem awaitOrEnd_eq (s : State) (i : SlotId) (j : Job) (c : Burst) : s.awaitOrEnd i j c = afterDiscard s i j c := by
  simp only [State.awaitOrEnd, afterDiscard, Burst.awaitsRead, endBurst_eq, afterBurst_putBurst]

theorem failRead_eq (b : Burst) (r : ReadRequest) : b.failRead r = failedRead b r := by
  simp only [Burst.failRead, failedRead, List.filter_filter]
  congr 2
  funext x
  exact Bool.and_comm _ _

/-- Words that come back to a job in ENDING, or to a failed burst, are discarded. -/
theorem readReturns_discard (s : State) (i : SlotId) (j : Job) (b : Burst) (r : ReadRequest) (d : BurstData)
    (h : j.isRunning = false ∨ b.failed = true) :
    s.readReturns i j b r (.words d) = afterDiscard s i j (withoutRead b r) := by
  have : (j.isRunning && !b.failed) = false := by rcases h with h | h <;> simp [h]
  simp only [State.readReturns, this, Bool.false_eq_true, if_false, awaitOrEnd_eq]
  rfl

/-- A read that fails in a job in ENDING, or in a failed burst, marks the burst and changes no status. -/
theorem readReturns_secondFailure (s : State) (i : SlotId) (j : Job) (b : Burst) (r : ReadRequest) (f : PlacedFault)
    (h : j.isRunning = false ∨ b.failed = true) :
    s.readReturns i j b r (.failed f) = afterDiscard s i j (failedRead b r) := by
  have : (j.isRunning && !b.failed) = false := by rcases h with h | h <;> simp [h]
  simp only [State.readReturns, this, Bool.false_eq_true, if_false, awaitOrEnd_eq, failRead_eq]

/-- A burst's last write is done: the burst is counted and ends. -/
theorem writeDone_last (s : State) (i : SlotId) (j : Job) (b : Burst) (w : WriteRequest)
    (h : ∀ x ∈ b.writes, x = w ∨ x.stage = .done) :
    s.writeDone i j b w = afterBurst s i { j with done := j.done + 1 } b.index := by
  have hall : (b.setWrite w .done).allWritten = true := by
    simp only [Burst.allWritten, Burst.setWrite, List.all_map, List.all_eq_true]
    intro x hx
    rcases h x hx with rfl | hd
    · simp
    · by_cases hxw : x = w
      · simp [hxw]
      · simp [hxw, hd]
  simp only [State.writeDone, hall, if_true, endBurstWell_eq]
  exact afterBurst_putBurst s i { j with done := j.done + 1 } (b.setWrite w .done)

/-! ### The finish and the free -/

theorem settledStatus_eq {j : Job} {st : Status} (h : SettledAs j st) : j.settledStatus = st := by
  unfold Job.settledStatus
  rcases h with ⟨h, rfl⟩ | ⟨h, ⟨f, hf, rfl⟩ | ⟨hc, hd, rfl⟩ | ⟨hc, hd, rfl⟩⟩
  · simp [h]
  · simp [h, hf]
  · simp [h, hc, Nat.ne_of_lt hd]
  · simp [h, hc, hd]

theorem needsRecord_iff (r : Report) (st : Status) : needsRecord r st = true ↔ RecordNeeded r st := by
  unfold RecordNeeded
  cases r <;> cases st <;> simp [needsRecord]

theorem hasRoom_iff (s : State) :
    s.hasRoom = true ↔ s.completion.fifo.length < 64 ∧ s.completion.waiters = [] := by
  simp [State.hasRoom]

/-- A finish without a record. -/
theorem finishJob_silent (s : State) (i : SlotId) {j : Job} {st : Status} (h : SettledAs j st)
    (hr : ¬RecordNeeded j.command.report st) :
    s.finishJob i j = (s.setSlot i (some { j with status := some st })).freeSlot i := by
  have hn : needsRecord j.command.report st = false := by
    rw [← Bool.not_eq_true, needsRecord_iff]
    exact hr
  simp [State.finishJob, settledStatus_eq h, hn]

/-- A finish with a record, and room for it. -/
theorem finishJob_post (s : State) (i : SlotId) {j : Job} {st : Status} (h : SettledAs j st)
    (hr : RecordNeeded j.command.report st) (hf : s.completion.fifo.length < 64) (hw : s.completion.waiters = []) :
    s.finishJob i j =
      ((s.setSlot i (some { j with status := some st })).setCompletion
        { s.completion with
          fifo := s.completion.fifo ++
            [Record.job j.command.work.kind st j.queue j.seq j.command.tag j.done j.saturation j.place] }).freeSlot i := by
  have hn := (needsRecord_iff _ _).2 hr
  have hm := (hasRoom_iff s).2 ⟨hf, hw⟩
  simp only [State.finishJob, settledStatus_eq h, hn, hm, if_true]
  rfl

/-- A finish with a record and no room for it. -/
theorem finishJob_wait (s : State) (i : SlotId) {j : Job} {st : Status} (h : SettledAs j st)
    (hr : RecordNeeded j.command.report st) (hf : 64 ≤ s.completion.fifo.length ∨ s.completion.waiters ≠ []) :
    s.finishJob i j =
      (s.setSlot i (some { j with state := .posting, status := some st })).setCompletion
        { s.completion with waiters := s.completion.waiters ++ [.slot i] } := by
  have hn := (needsRecord_iff _ _).2 hr
  have hm : s.hasRoom = false := by
    rw [← Bool.not_eq_true, hasRoom_iff]
    rintro ⟨h1, h2⟩
    rcases hf with hf | hf
    · omega
    · exact hf h2
  simp only [State.finishJob, settledStatus_eq h, hn, hm, if_true, Bool.false_eq_true, if_false]
  rfl

theorem jobFreed_eq :
    Queue.jobFreed = fun x : Queue =>
      if x.state = QueueState.aborting ∧ x.jobs - 1 = 0 then { x with jobs := x.jobs - 1, state := .stopped }
      else { x with jobs := x.jobs - 1 } := rfl

/-! ### The parts of a job's command -/

/-- A job read from parts carries those parts. -/
theorem job_parts {p : Parts} {j : JobCommand} (h : p.job = some j) : j.parts = p := by
  unfold Parts.job at h
  split at h
  · unfold Parts.moveForm at h
    split at h
    · cases h
      rfl
    · cases h
  · unfold Parts.tabloadForm at h
    split at h
    · split at h
      · cases h
        rfl
      · cases h
    · cases h
  · cases h

/-! ### The request channel -/

/-- While no offer stands the request channel shows nothing. -/
theorem requestChannel_idle (s : State) (h : ∀ e, (s.reqId e).isOffered = false) : s.requestChannel = none := by
  have : s.standingOffer = none := by simp [State.standingOffer, h]
  simp only [State.requestChannel, this]

/-- The only offer that stands is what the request channel shows. -/
theorem requestChannel_offer (s : State) (d : ReqId) (b : BusyId) (hd : s.reqId d = .busy b) (hb : b.accepted = false)
    (ho : ∀ e, e ≠ d → (s.reqId e).isOffered = false) :
    s.requestChannel =
      some { id := d, isWrite := b.role = .write, address := b.address, writeData := s.offeredWords b } := by
  have : s.standingOffer = some d := by
    unfold State.standingOffer
    cases hf : (List.finRange 16).find? fun d => (s.reqId d).isOffered with
    | none =>
      have := List.find?_eq_none.1 hf d (List.mem_finRange d)
      simp [hd, IdState.isOffered, hb] at this
    | some e =>
      have := List.find?_some hf
      by_cases he : e = d
      · rw [he]
      · simp [ho e he] at this
  simp only [State.requestChannel, this, hd]

end Sys2Proof.Laws
end

