-- ==== Sys2Proof/Laws/Frame.lean ====
section
/-!
SUPPORT. What the engine's shared operations leave alone: the command queue, the reset pin, the host port, the external
port, the bank pointers, the banks, the view, the mask, the threshold and STRAY; and, for all but a TABLOAD's combine, the
segment table.
-/

namespace Sys2Proof.Laws

open Sys2Proof.Machine

/-- Everything outside the queues, tags, slots, interlock, FIFO, wait list, HALT and NOTE is as it was. -/
structure Outside (s t : State) : Prop where
  pending : t.pending = s.pending
  resetPin : t.resetPin = s.resetPin
  host : t.host = s.host
  ext : t.ext = s.ext
  bankPointers : t.bankPointers = s.bankPointers
  memory : t.memory = s.memory
  view : t.completion.view = s.completion.view
  mask : t.interrupts.mask = s.interrupts.mask
  threshold : t.interrupts.threshold = s.interrupts.threshold
  stray : t.interrupts.stray = s.interrupts.stray

/-- `Outside`, and the segment table as it was. -/
structure OutsideTable (s t : State) : Prop extends Outside s t where
  segments : t.segments = s.segments

theorem Outside.refl (s : State) : Outside s s := ⟨rfl, rfl, rfl, rfl, rfl, rfl, rfl, rfl, rfl, rfl⟩

theorem Outside.trans {s t u : State} (h : Outside s t) (k : Outside t u) : Outside s u :=
  ⟨k.pending.trans h.pending, k.resetPin.trans h.resetPin, k.host.trans h.host, k.ext.trans h.ext,
    k.bankPointers.trans h.bankPointers, k.memory.trans h.memory, k.view.trans h.view, k.mask.trans h.mask,
    k.threshold.trans h.threshold, k.stray.trans h.stray⟩

theorem OutsideTable.refl (s : State) : OutsideTable s s := ⟨Outside.refl s, rfl⟩

theorem OutsideTable.trans {s t u : State} (h : OutsideTable s t) (k : OutsideTable t u) : OutsideTable s u :=
  ⟨h.toOutside.trans k.toOutside, k.segments.trans h.segments⟩

/-- A fold of operations that each keep the outside keeps it. -/
theorem outside_foldl {α : Type} (f : State → α → State) (h : ∀ s a, OutsideTable s (f s a)) (l : List α) (s : State) :
    OutsideTable s (l.foldl f s) := by
  induction l generalizing s with
  | nil => exact .refl s
  | cons a l ih => exact (h s a).trans (ih _)

variable (s : State)

/-! ### Setters -/

theorem outside_setQueue (q : QueueId) (x : Queue) : OutsideTable s (s.setQueue q x) :=
  ⟨⟨rfl, rfl, rfl, rfl, rfl, rfl, rfl, rfl, rfl, rfl⟩, rfl⟩

theorem outside_modQueue (q : QueueId) (f : Queue → Queue) : OutsideTable s (s.modQueue q f) := outside_setQueue s q _

theorem outside_setTag (t : TagId) (x : Tag) : OutsideTable s (s.setTag t x) :=
  ⟨⟨rfl, rfl, rfl, rfl, rfl, rfl, rfl, rfl, rfl, rfl⟩, rfl⟩

theorem outside_setSlot (i : SlotId) (x : Option Job) : OutsideTable s (s.setSlot i x) :=
  ⟨⟨rfl, rfl, rfl, rfl, rfl, rfl, rfl, rfl, rfl, rfl⟩, rfl⟩

theorem outside_modJob (i : SlotId) (f : Job → Job) : OutsideTable s (s.modJob i f) := by
  unfold State.modJob
  split
  · exact .refl s
  · exact outside_setSlot s i _

theorem outside_setInterlock (x : Interlock) : OutsideTable s (s.setInterlock x) :=
  ⟨⟨rfl, rfl, rfl, rfl, rfl, rfl, rfl, rfl, rfl, rfl⟩, rfl⟩

theorem outside_setCompletion (x : Completion) (h : x.view = s.completion.view) : OutsideTable s (s.setCompletion x) :=
  ⟨⟨rfl, rfl, rfl, rfl, rfl, rfl, h, rfl, rfl, rfl⟩, rfl⟩

theorem outside_setInterrupts (x : Interrupts) (hm : x.mask = s.interrupts.mask)
    (ht : x.threshold = s.interrupts.threshold) (hs : x.stray = s.interrupts.stray) :
    OutsideTable s (s.setInterrupts x) := ⟨⟨rfl, rfl, rfl, rfl, rfl, rfl, rfl, hm, ht, hs⟩, rfl⟩

/-! ### Queues, tags, fences -/

theorem outside_haltQueue (q : QueueId) (r : HaltReason) : OutsideTable s (s.haltQueue q r) :=
  ⟨⟨rfl, rfl, rfl, rfl, rfl, rfl, rfl, rfl, rfl, rfl⟩, rfl⟩

theorem outside_reportJobFault (q : QueueId) (f : JobFault) (n : BitVec 16) :
    OutsideTable s (s.reportJobFault q f n) := by
  unfold State.reportJobFault
  split <;> first | exact .refl s | exact outside_haltQueue s q _

theorem outside_evaluateFence (q : QueueId) (c : HeldCommand) : OutsideTable s (s.evaluateFence q c) := by
  unfold State.evaluateFence
  split
  · split
    · exact outside_haltQueue s q _
    · exact outside_modQueue s q _
  · exact outside_modQueue s q _

theorem outside_drainQueue (t : TagId) (q : QueueId) : OutsideTable s (s.drainQueue t q) := by
  unfold State.drainQueue
  split
  · split
    · exact outside_evaluateFence s q _
    · exact .refl s
  · exact .refl s

theorem outside_drain (t : TagId) : OutsideTable s (s.drain t) :=
  outside_foldl _ (fun u q => outside_drainQueue u t q) _ s

theorem outside_releaseTag (t : TagId) (bad : Bool) : OutsideTable s (s.releaseTag t bad) := by
  unfold State.releaseTag
  simp only
  split
  · exact (outside_setTag s t _).trans (outside_drain _ t)
  · exact outside_setTag s t _

/-! ### Slots and records -/

theorem outside_enterSlot (i : SlotId) (q : QueueId) (n : BitVec 16) (c : JobCommand) :
    OutsideTable s (s.enterSlot i q n c) := by
  unfold State.enterSlot
  have h := (outside_setSlot s i (some (Job.enter q n c))).trans
    (outside_modQueue _ q fun x => { x.pop.withState .running with jobs := x.jobs + 1 })
  cases c.tag with
  | none => exact h
  | some t => exact h.trans (outside_setTag _ t _)

theorem outside_grantSlot (i : SlotId) : OutsideTable s (s.grantSlot i) := by
  unfold State.grantSlot
  split
  · exact .refl s
  · rename_i q n c _
    exact (outside_enterSlot s i q n c).trans
      ⟨⟨rfl, rfl, rfl, rfl, rfl, rfl, rfl, rfl, rfl, rfl⟩, rfl⟩

theorem outside_post (r : Record) : OutsideTable s (s.post r) := outside_setCompletion s _ rfl

theorem outside_joinWaiters (p : Poster) : OutsideTable s (s.joinWaiters p) := outside_setCompletion s _ rfl

theorem outside_postNote (q : QueueId) (c : HeldCommand) : OutsideTable s (s.postNote q c) :=
  ((outside_post s _).trans (outside_modQueue _ q _)).trans (outside_setInterrupts _ _ rfl rfl rfl)

theorem outside_freeSlot (i : SlotId) : OutsideTable s (s.freeSlot i) := by
  unfold State.freeSlot
  split
  · exact .refl s
  · rename_i j _
    simp only
    refine .trans (.trans ?_ (outside_modQueue _ j.queue Queue.jobFreed)) (outside_grantSlot _ i)
    split
    · exact outside_setSlot s i none
    · exact (outside_setSlot s i none).trans (outside_releaseTag _ _ _)

theorem outside_finishJob (i : SlotId) (j : Job) : OutsideTable s (s.finishJob i j) := by
  unfold State.finishJob
  simp only
  split
  · split
    · exact ((outside_setSlot s i _).trans (outside_post _ _)).trans (outside_freeSlot _ i)
    · exact (outside_setSlot s i _).trans (outside_joinWaiters _ _)
  · exact (outside_setSlot s i _).trans (outside_freeSlot _ i)

theorem outside_finishIfOver (i : SlotId) : OutsideTable s (s.finishIfOver i) := by
  unfold State.finishIfOver
  split
  · exact .refl s
  · split
    · exact outside_finishJob s i _
    · exact .refl s

/-! ### Interlock and bursts -/

theorem outside_scanWaiter (w : LockRequest) : OutsideTable s (s.scanWaiter w) := by
  unfold State.scanWaiter
  split
  · exact (outside_setInterlock s _).trans (outside_modJob _ _ _)
  · exact .refl s

theorem outside_scanWaiters : OutsideTable s s.scanWaiters := outside_foldl _ outside_scanWaiter _ s

theorem outside_releaseEntry (i : SlotId) (n : Nat) : OutsideTable s (s.releaseEntry i n) := by
  unfold State.releaseEntry
  split
  · exact (outside_setInterlock s _).trans (outside_scanWaiters _)
  · exact .refl s

theorem outside_removeBurst (i : SlotId) (n : Nat) : OutsideTable s (s.removeBurst i n) :=
  (outside_modJob s i _).trans (outside_releaseEntry _ i n)

theorem outside_endBurst (i : SlotId) (n : Nat) : OutsideTable s (s.endBurst i n) :=
  (outside_removeBurst s i n).trans (outside_finishIfOver _ i)

theorem outside_endBurstWell (i : SlotId) (n : Nat) : OutsideTable s (s.endBurstWell i n) :=
  (outside_modJob s i _).trans (outside_endBurst _ i n)

theorem outside_applyEnding (i : SlotId) (j : Job) : OutsideTable s (s.applyEnding i j) :=
  ((outside_setSlot s i _).trans (outside_setInterlock _ _)).trans
    (outside_foldl _ (fun u (b : Burst) => outside_removeBurst u i b.index) _ _)

theorem outside_firstFault (i : SlotId) (j : Job) (f : PlacedFault) : OutsideTable s (s.firstFault i j f) :=
  ((outside_reportJobFault s _ _ _).trans (outside_applyEnding _ i _)).trans (outside_finishIfOver _ i)

theorem outside_withSegments (x : Vector SegEntry 512) : Outside s { s with segments := x } :=
  ⟨rfl, rfl, rfl, rfl, rfl, rfl, rfl, rfl, rfl, rfl⟩

theorem outside_combine (i : SlotId) (j : Job) (b : Burst) : Outside s (s.combine i j b) := by
  unfold State.combine
  simp only
  split
  · exact (outside_withSegments s _).trans (outside_endBurstWell _ i _).toOutside
  all_goals exact (outside_setSlot s i _).toOutside

theorem outside_awaitOrEnd (i : SlotId) (j : Job) (c : Burst) : OutsideTable s (s.awaitOrEnd i j c) := by
  unfold State.awaitOrEnd
  simp only
  split
  · exact outside_setSlot s i _
  · exact (outside_setSlot s i _).trans (outside_endBurst _ i _)

theorem outside_readReturns (i : SlotId) (j : Job) (b : Burst) (r : ReadRequest) (o : ReadOutcome) :
    Outside s (s.readReturns i j b r o) := by
  unfold State.readReturns
  split
  · split
    · simp only
      split
      · exact outside_combine s i j _
      · exact (outside_setSlot s i _).toOutside
    · exact (outside_awaitOrEnd s i j _).toOutside
  · split
    · exact (outside_firstFault s i _ _).toOutside
    · exact (outside_awaitOrEnd s i j _).toOutside

theorem outside_writeDone (i : SlotId) (j : Job) (b : Burst) (w : WriteRequest) :
    OutsideTable s (s.writeDone i j b w) := by
  unfold State.writeDone
  simp only
  split
  · exact (outside_setSlot s i _).trans (outside_endBurstWell _ i _)
  · exact outside_setSlot s i _

theorem outside_writeFails (i : SlotId) (j : Job) (b : Burst) (f : PlacedFault) :
    OutsideTable s (s.writeFails i j b f) := by
  unfold State.writeFails
  split
  · exact outside_firstFault s i _ _
  · exact outside_endBurst s i _

theorem outside_cancelJob (q : QueueId) (i : SlotId) : OutsideTable s (State.cancelJob q s i) := by
  unfold State.cancelJob
  split
  · exact .refl s
  · split
    · exact (outside_applyEnding s i _).trans (outside_finishIfOver _ i)
    · exact .refl s

theorem outside_deliver (b : BusyId) (o : ExtOutcome) : Outside s (s.deliver b o) := by
  unfold State.deliver
  split
  · exact .refl s
  · split
    · split
      · exact .refl s
      · exact outside_readReturns s _ _ _ _ _
    · split
      · exact .refl s
      · split
        · exact (outside_writeDone s _ _ _ _).toOutside
        · exact (outside_writeFails s _ _ _ _).toOutside

/-! ### Issue, take, abort, room -/

theorem outside_requestLock (i : SlotId) (j : Job) (b : Burst) (k : Place) :
    OutsideTable s (s.requestLock i j b k) := by
  unfold State.requestLock
  simp only
  split <;> exact (outside_setSlot s i _).trans (outside_setInterlock _ _)

theorem outside_placeBurst (i : SlotId) (j : Job) (src dst : List Place) : OutsideTable s (s.placeBurst i j src dst) := by
  unfold State.placeBurst
  simp only
  split
  · exact outside_setSlot s i _
  · split
    · split
      · exact outside_requestLock s i j _ _
      · exact outside_setSlot s i _
    · exact outside_setSlot s i _

theorem outside_issueBurst (i : SlotId) (j : Job) : OutsideTable s (s.issueBurst i j) := by
  unfold State.issueBurst
  simp only
  split
  · exact outside_firstFault s i _ _
  · exact outside_placeBurst s i _ _ _

theorem outside_carryOutJob (q : QueueId) (n : BitVec 16) (j : JobCommand) : OutsideTable s (s.carryOutJob q n j) := by
  unfold State.carryOutJob
  split
  · exact outside_enterSlot s _ q n j
  · exact outside_modQueue s q _

theorem outside_carryOutNote (q : QueueId) (c : HeldCommand) : OutsideTable s (s.carryOutNote q c) := by
  unfold State.carryOutNote
  split
  · exact outside_postNote s q c
  · exact (outside_modQueue s q _).trans (outside_joinWaiters _ _)

theorem outside_takeCommand (q : QueueId) (c : HeldCommand) : OutsideTable s (s.takeCommand q c) := by
  unfold State.takeCommand
  split
  · exact outside_haltQueue s q _
  · exact outside_carryOutJob s q _ _
  · exact outside_evaluateFence s q c
  · exact outside_carryOutNote s q c

theorem outside_leaveWaiters (q : QueueId) : OutsideTable s (s.leaveWaiters q) := outside_setCompletion s _ rfl

theorem outside_abortQueue (q : QueueId) : OutsideTable s (s.abortQueue q) := by
  unfold State.abortQueue
  split
  · exact outside_modQueue s q _
  all_goals
    exact (((outside_modQueue s q _).trans (outside_leaveWaiters _ q)).trans
      (outside_foldl _ (fun u i => outside_cancelJob u q i) _ _)).trans (outside_modQueue _ q _)

theorem outside_postNow (p : Poster) : OutsideTable s (s.postNow p) := by
  unfold State.postNow
  split
  · split
    · exact .refl s
    · exact (outside_post s _).trans (outside_freeSlot _ _)
  · split
    · exact .refl s
    · exact outside_postNote s _ _

theorem outside_giveRoom : OutsideTable s s.giveRoom := by
  unfold State.giveRoom
  split
  · exact .refl s
  · rename_i p rest _
    exact (outside_setCompletion s { s.completion with waiters := rest } rfl).trans (outside_postNow _ p)

end Sys2Proof.Laws
end

