-- ==== Sys2Proof/Laws/Memory.lean ====
section
/-!
SUPPORT. The laws of the banks: a read after a write, the canonical form, and bursts as eight words.
-/

namespace Sys2Proof.Laws

open Sys2Proof.Machine

/-! ### One word -/

theorem lookup_write_self (m : Memory) (k : Nat) (v : StoredWord) : (m.write k v).lookup k = some v := by
  induction m with
  | nil => simp [Memory.write, Memory.lookup]
  | cons x m ih =>
    obtain ⟨j, w⟩ := x
    unfold Memory.write
    split
    · simp [Memory.lookup]
    · split
      · simp [Memory.lookup]
      · rename_i _ h
        simp [Memory.lookup, Ne.symm h, ih]

theorem lookup_write_ne (m : Memory) (k l : Nat) (v : StoredWord) (h : k ≠ l) :
    (m.write k v).lookup l = m.lookup l := by
  induction m with
  | nil => simp [Memory.write, Memory.lookup, h]
  | cons x m ih =>
    obtain ⟨j, w⟩ := x
    unfold Memory.write
    split
    · simp [Memory.lookup, h]
    · split
      · rename_i _ e
        subst e
        simp [Memory.lookup, h]
      · simp [Memory.lookup, ih]

/-- A read after a write to the same key gives the word written. -/
@[simp] theorem read_write_self (m : Memory) (k : Nat) (v : StoredWord) : (m.write k v).read k = v := by
  simp [Memory.read, lookup_write_self]

/-- A write leaves every other key alone. -/
theorem read_write_ne (m : Memory) (k l : Nat) (v : StoredWord) (h : k ≠ l) : (m.write k v).read l = m.read l := by
  simp [Memory.read, lookup_write_ne m k l v h]

/-- Each bank word has a key of its own. -/
theorem wordKey_inj {b c : BankId} {w x : BankWord} : wordKey b w = wordKey c x ↔ b = c ∧ w = x := by
  unfold wordKey
  constructor
  · intro h
    exact ⟨Fin.ext (by omega), Fin.ext (by omega)⟩
  · rintro ⟨rfl, rfl⟩
    rfl

theorem wordKey_lt (b : BankId) (w : BankWord) : wordKey b w < 65536 := by
  unfold wordKey; omega

/-- A word write is read back with its data and agreeing check bits (R6). -/
@[simp] theorem readWord_writeWord_self (m : Memory) (b : BankId) (w : BankWord) (x : Word) :
    (m.writeWord b w x).readWord b w = { data := x, agrees := true } := by
  simp [Memory.readWord, Memory.writeWord]

/-- A word write leaves every other bank word as it was. -/
theorem readWord_writeWord_ne (m : Memory) (b c : BankId) (w y : BankWord) (x : Word) (h : ¬(b = c ∧ w = y)) :
    (m.writeWord b w x).readWord c y = m.readWord c y := by
  simp [Memory.readWord, Memory.writeWord, read_write_ne, wordKey_inj, h]

/-! ### The canonical form -/

theorem mem_write {m : Memory} {k : Nat} {v : StoredWord} {x : Nat × StoredWord} (h : x ∈ m.write k v) :
    x = (k, v) ∨ x ∈ m := by
  induction m with
  | nil => simpa [Memory.write] using h
  | cons y m ih =>
    obtain ⟨j, w⟩ := y
    unfold Memory.write at h
    split at h
    · simpa using h
    · split at h
      · rcases List.mem_cons.1 h with h | h
        · exact .inl h
        · exact .inr (List.mem_cons_of_mem _ h)
      · rcases List.mem_cons.1 h with h | h
        · exact .inr (h ▸ List.mem_cons_self ..)
        · exact (ih h).imp_right (List.mem_cons_of_mem _)

theorem sorted_write {m : Memory} (k : Nat) (v : StoredWord) (h : m.Pairwise fun x y => x.1 < y.1) :
    (m.write k v).Pairwise fun x y => x.1 < y.1 := by
  induction m with
  | nil => simp [Memory.write]
  | cons y m ih =>
    obtain ⟨j, w⟩ := y
    obtain ⟨hy, hm⟩ := List.pairwise_cons.1 h
    unfold Memory.write
    split
    · rename_i lt
      refine List.pairwise_cons.2 ⟨fun x hx => ?_, h⟩
      rcases List.mem_cons.1 hx with rfl | hx
      · exact lt
      · exact Nat.lt_trans lt (hy x hx)
    · split
      · rename_i _ e
        subst e
        exact List.pairwise_cons.2 ⟨hy, hm⟩
      · refine List.pairwise_cons.2 ⟨fun x hx => ?_, ih hm⟩
        rcases mem_write hx with rfl | hx
        · simp only; omega
        · exact hy x hx

/-- Writing a key within the banks keeps the canonical form. -/
theorem wf_write {m : Memory} (h : m.wf) (k : Nat) (v : StoredWord) (hk : k < 65536) : (m.write k v).wf :=
  ⟨sorted_write k v h.1, fun _ hx => (mem_write hx).elim (fun e => e ▸ hk) (h.2 _)⟩

/-- A word write keeps the canonical form. -/
theorem wf_writeWord {m : Memory} (h : m.wf) (b : BankId) (w : BankWord) (x : Word) : (m.writeWord b w x).wf :=
  wf_write h _ _ (wordKey_lt b w)

/-- A burst write keeps the canonical form. -/
theorem wf_writeBurst {m : Memory} (h : m.wf) (b : BankId) (k : BankBurst) (d : BurstData) : (m.writeBurst b k d).wf := by
  unfold Memory.writeBurst
  generalize List.finRange 8 = l
  induction l generalizing m with
  | nil => exact h
  | cons n l ih => exact ih (wf_writeWord h ..)

/-- A key below every listed key is not listed. -/
theorem lookup_eq_none_of_lt {m : Memory} {k : Nat} (h : ∀ x ∈ m, k < x.1) : m.lookup k = none := by
  induction m with
  | nil => rfl
  | cons y m ih =>
    obtain ⟨j, w⟩ := y
    have := h (j, w) (List.mem_cons_self ..)
    simp only at this
    rw [Memory.lookup, if_neg (by omega)]
    exact ih fun x hx => h x (List.mem_cons_of_mem _ hx)

/-- Canonical memories with the same listed words are equal lists. -/
theorem memory_ext {m n : Memory} (hm : m.wf) (hn : n.wf) (h : ∀ k, m.lookup k = n.lookup k) : m = n := by
  obtain ⟨hm, -⟩ := hm
  obtain ⟨hn, -⟩ := hn
  induction m generalizing n with
  | nil =>
    cases n with
    | nil => rfl
    | cons y n => have := h y.1; simp [Memory.lookup] at this
  | cons x m ih =>
    obtain ⟨j, w⟩ := x
    obtain ⟨hx, hm'⟩ := List.pairwise_cons.1 hm
    cases n with
    | nil => have := h j; simp [Memory.lookup] at this
    | cons y n =>
      obtain ⟨l, u⟩ := y
      obtain ⟨hy, hn'⟩ := List.pairwise_cons.1 hn
      have hj := h j
      have hl := h l
      have e : j = l := by
        by_contra ne
        rcases Nat.lt_or_gt_of_ne ne with lt | gt
        · rw [lookup_eq_none_of_lt (m := (l, u) :: n)] at hj
          · simp [Memory.lookup] at hj
          · intro z hz
            rcases List.mem_cons.1 hz with rfl | hz
            · exact lt
            · exact Nat.lt_trans lt (hy z hz)
        · rw [lookup_eq_none_of_lt (m := (j, w) :: m)] at hl
          · simp [Memory.lookup] at hl
          · intro z hz
            rcases List.mem_cons.1 hz with rfl | hz
            · exact gt
            · exact Nat.lt_trans gt (hx z hz)
      subst e
      have hw : w = u := by simpa [Memory.lookup] using hj
      subst hw
      refine congrArg _ (ih (fun k => ?_) hm' hn')
      by_cases ek : j = k
      · subst ek
        rw [lookup_eq_none_of_lt hx, lookup_eq_none_of_lt hy]
      · simpa [Memory.lookup, ek] using h k

/-! ### Bursts -/

theorem burstWord_inj {k l : BankBurst} {n o : Fin 8} : burstWord k n = burstWord l o ↔ k = l ∧ n = o := by
  unfold burstWord
  rw [Fin.mk.injEq]
  constructor
  · intro h
    exact ⟨Fin.ext (by omega), Fin.ext (by omega)⟩
  · rintro ⟨rfl, rfl⟩
    rfl

theorem readWord_writeBurst_list (m : Memory) (b c : BankId) (k : BankBurst) (y : BankWord) (d : BurstData)
    (l : List (Fin 8)) (h : ∀ n ∈ l, ¬(b = c ∧ burstWord k n = y)) :
    (l.foldl (fun m n => m.writeWord b (burstWord k n) d[n]) m).readWord c y = m.readWord c y := by
  induction l generalizing m with
  | nil => rfl
  | cons n l ih =>
    rw [List.foldl_cons, ih _ fun o ho => h o (List.mem_cons_of_mem _ ho),
      readWord_writeWord_ne _ _ _ _ _ _ (h n (List.mem_cons_self ..))]

/-- A burst write leaves every word outside its burst as it was. -/
theorem readWord_writeBurst_other (m : Memory) (b c : BankId) (k : BankBurst) (y : BankWord) (d : BurstData)
    (h : ∀ n, ¬(b = c ∧ burstWord k n = y)) : (m.writeBurst b k d).readWord c y = m.readWord c y :=
  readWord_writeBurst_list m b c k y d _ fun n _ => h n

/-- A burst write stores word n of the data at word 8k + n with agreeing check bits (R2, R6, R8). -/
theorem readWord_writeBurst_self (m : Memory) (b : BankId) (k : BankBurst) (n : Fin 8) (d : BurstData) :
    (m.writeBurst b k d).readWord b (burstWord k n) = { data := d[n], agrees := true } := by
  unfold Memory.writeBurst
  have key : ∀ (l : List (Fin 8)) (m : Memory), l.Nodup → n ∈ l →
      (l.foldl (fun m n => m.writeWord b (burstWord k n) d[n]) m).readWord b (burstWord k n) =
        { data := d[n], agrees := true } := by
    intro l
    induction l with
    | nil => intro m _ hn; simp at hn
    | cons o l ih =>
      intro m hl hn
      rw [List.foldl_cons]
      obtain ⟨ho, hl⟩ := List.nodup_cons.1 hl
      rcases List.mem_cons.1 hn with rfl | hn
      · rw [readWord_writeBurst_list]
        · simp
        · rintro p hp ⟨-, e⟩
          obtain ⟨-, rfl⟩ := burstWord_inj.1 e
          exact ho hp
      · exact ih _ hl hn
  exact key _ m (List.nodup_finRange 8) (List.mem_finRange n)

/-- Word n of a burst made from a function. -/
@[simp] theorem getElem_mkBurst (f : Fin 8 → Word) (n : Fin 8) : (mkBurst f)[n] = f n := by
  fin_cases n <;> rfl

/-- The data read from a burst just written is the data written. -/
theorem burstData_writeBurst_self (m : Memory) (b : BankId) (k : BankBurst) (d : BurstData) :
    (m.writeBurst b k d).burstData b k = d := by
  have h : ∀ n : Fin 8, ((m.writeBurst b k d).burstData b k)[n] = d[n] := fun n => by
    simp only [Memory.burstData, getElem_mkBurst, readWord_writeBurst_self]
  exact Vector.ext fun i hi => h ⟨i, hi⟩

/-- A burst just written has no parity error (R6). -/
theorem firstParityError_writeBurst_self (m : Memory) (b : BankId) (k : BankBurst) (d : BurstData) :
    (m.writeBurst b k d).firstParityError b k = none := by
  simp [Memory.firstParityError, readWord_writeBurst_self]

end Sys2Proof.Laws
end

