-- ==== Sys2Proof/WellFormed.lean ====
section
/-!
DEFINITION. Which commands are written as their row of the table says. A command that is not well formed still has a
meaning (the register's own rule decides what the write does); it is only not what its row names.
-/

namespace Sys2Proof

/-- A register with no behaviour of its own on a write: QnSTAGEk, APADDR, APDLO (row REGISTER_WRITE). -/
def plainRegister : Machine.Register → Bool
  | .stage _ _ => true
  | .apaddr => true
  | .apdlo => true
  | _ => false

/-- The command has the form of its row: a CLEAR has bit 31 set (R49), a SOFT_RESET bit 0 (R180), a
CONTROL_CODE_REFUSED code 0, 6 or 7 (R34), and a REGISTER_WRITE reaches a register with no behaviour of its own. -/
def WellFormed : Instr → Bool
  | .clear _ value => value.getLsbD 31
  | .softReset value => value.getLsbD 0
  | .controlCodeRefused _ value =>
      value.extractLsb' 0 3 == 0#3 || value.extractLsb' 0 3 == 6#3 || value.extractLsb' 0 3 == 7#3
  | .registerWrite addr _ => (Machine.registerAt addr).any plainRegister
  | .push _ | .start _ | .stop _ | .resume _ | .skip _ | .abort _ | .take _ | .burstIssue _
  | .burstReadTake _ | .burstWriteTake _ | .wordReadTake | .wordWriteTake | .offer | .acceptance
  | .response _ _ _ | .expiry _ | .segWrite _ _ | .xcfgWrite _ | .icauseWrite _ | .imaskWrite _
  | .icplthWrite _ | .cfpop | .apdhiWrite _ | .apdloRead | .apdhiRead | .apstatWrite _
  | .pinReset | .pinResetEnd => true

end Sys2Proof
end

