-- ==== Sys2Proof/Laws/PerInstr.lean ====
section
/-!
SUPPORT. Statements made per command: what the form of each row is in numbers, and that `WellFormed` says exactly that.
-/

namespace Sys2Proof.Laws

open Sys2Proof.Machine

/-- The form of a row, by the value written and the address: bit 31 of a CLEAR (R182), bit 0 of a SOFT_RESET (R180), a code
other than 1 to 5 (R183), and the addresses of APADDR, APDLO and the staging registers (R179). -/
def RowForm : Instr → Prop
  | .clear _ value => 2 ^ 31 ≤ value.toNat
  | .softReset value => value.toNat % 2 = 1
  | .controlCodeRefused _ value => value.toNat % 8 = 0 ∨ 6 ≤ value.toNat % 8
  | .registerWrite addr _ =>
      addr.toNat / 4 = 0x040 / 4 ∨ addr.toNat / 4 = 0x044 / 4 ∨
        (0x200 ≤ addr.toNat ∧ addr.toNat < 0x400 ∧ addr.toNat % 0x80 < 0x10)
  | .push _ | .start _ | .stop _ | .resume _ | .skip _ | .abort _ | .take _ | .burstIssue _ | .burstReadTake _
  | .burstWriteTake _ | .wordReadTake | .wordWriteTake | .offer | .acceptance | .response _ _ _ | .expiry _
  | .segWrite _ _ | .xcfgWrite _ | .icauseWrite _ | .imaskWrite _ | .icplthWrite _ | .cfpop | .apdhiWrite _
  | .apdloRead | .apdhiRead | .apstatWrite _ | .pinReset | .pinResetEnd => True

/-- A command is well formed exactly when it has the form of its row. -/
def WellFormedForm.Statement (i : Instr) : Prop := WellFormed i = true ↔ RowForm i

theorem WellFormedForm.push (q : QueueId) : WellFormedForm.Statement (.push q) := ⟨fun _ => trivial, fun _ => rfl⟩

theorem WellFormedForm.start (q : QueueId) : WellFormedForm.Statement (.start q) := ⟨fun _ => trivial, fun _ => rfl⟩

theorem WellFormedForm.stop (q : QueueId) : WellFormedForm.Statement (.stop q) := ⟨fun _ => trivial, fun _ => rfl⟩

theorem WellFormedForm.resume (q : QueueId) : WellFormedForm.Statement (.resume q) := ⟨fun _ => trivial, fun _ => rfl⟩

theorem WellFormedForm.skip (q : QueueId) : WellFormedForm.Statement (.skip q) := ⟨fun _ => trivial, fun _ => rfl⟩

theorem WellFormedForm.abort (q : QueueId) : WellFormedForm.Statement (.abort q) := ⟨fun _ => trivial, fun _ => rfl⟩

theorem WellFormedForm.take (q : QueueId) : WellFormedForm.Statement (.take q) := ⟨fun _ => trivial, fun _ => rfl⟩

theorem WellFormedForm.burstIssue (i : SlotId) :
    WellFormedForm.Statement (.burstIssue i) := ⟨fun _ => trivial, fun _ => rfl⟩

theorem WellFormedForm.burstReadTake (p : BankId) :
    WellFormedForm.Statement (.burstReadTake p) := ⟨fun _ => trivial, fun _ => rfl⟩

theorem WellFormedForm.burstWriteTake (p : BankId) :
    WellFormedForm.Statement (.burstWriteTake p) := ⟨fun _ => trivial, fun _ => rfl⟩

theorem WellFormedForm.wordReadTake : WellFormedForm.Statement .wordReadTake := ⟨fun _ => trivial, fun _ => rfl⟩

theorem WellFormedForm.wordWriteTake : WellFormedForm.Statement .wordWriteTake := ⟨fun _ => trivial, fun _ => rfl⟩

theorem WellFormedForm.offer : WellFormedForm.Statement .offer := ⟨fun _ => trivial, fun _ => rfl⟩

theorem WellFormedForm.acceptance : WellFormedForm.Statement .acceptance := ⟨fun _ => trivial, fun _ => rfl⟩

theorem WellFormedForm.response (d : ReqId) (r : ResponseResult) (w : BurstData) :
    WellFormedForm.Statement (.response d r w) := ⟨fun _ => trivial, fun _ => rfl⟩

theorem WellFormedForm.expiry (d : ReqId) : WellFormedForm.Statement (.expiry d) := ⟨fun _ => trivial, fun _ => rfl⟩

theorem WellFormedForm.clear (t : TagId) (value : Half) : WellFormedForm.Statement (.clear t value) := by
  show value.getLsbD 31 = true ↔ 2 ^ 31 ≤ value.toNat
  rw [show value.getLsbD 31 = value.msb from by simp [BitVec.msb_eq_getLsbD_last], BitVec.msb_eq_decide,
    decide_eq_true_eq]

theorem WellFormedForm.segWrite (m : SegIndex) (v : Half) :
    WellFormedForm.Statement (.segWrite m v) := ⟨fun _ => trivial, fun _ => rfl⟩

theorem WellFormedForm.xcfgWrite (v : Half) :
    WellFormedForm.Statement (.xcfgWrite v) := ⟨fun _ => trivial, fun _ => rfl⟩

theorem WellFormedForm.icauseWrite (v : Half) :
    WellFormedForm.Statement (.icauseWrite v) := ⟨fun _ => trivial, fun _ => rfl⟩

theorem WellFormedForm.imaskWrite (v : Half) :
    WellFormedForm.Statement (.imaskWrite v) := ⟨fun _ => trivial, fun _ => rfl⟩

theorem WellFormedForm.icplthWrite (v : Half) :
    WellFormedForm.Statement (.icplthWrite v) := ⟨fun _ => trivial, fun _ => rfl⟩

theorem WellFormedForm.cfpop : WellFormedForm.Statement .cfpop := ⟨fun _ => trivial, fun _ => rfl⟩

theorem WellFormedForm.apdhiWrite (v : Half) :
    WellFormedForm.Statement (.apdhiWrite v) := ⟨fun _ => trivial, fun _ => rfl⟩

theorem WellFormedForm.apdloRead : WellFormedForm.Statement .apdloRead := ⟨fun _ => trivial, fun _ => rfl⟩

theorem WellFormedForm.apdhiRead : WellFormedForm.Statement .apdhiRead := ⟨fun _ => trivial, fun _ => rfl⟩

theorem WellFormedForm.apstatWrite (v : Half) :
    WellFormedForm.Statement (.apstatWrite v) := ⟨fun _ => trivial, fun _ => rfl⟩

/-- The plain registers stand at the addresses that `RowForm` names. -/
theorem plain_addresses (addr : BitVec 12) :
    (registerAt addr).any plainRegister = true ↔
      (addr.toNat / 4 = 0x040 / 4 ∨ addr.toNat / 4 = 0x044 / 4 ∨
        (0x200 ≤ addr.toNat ∧ addr.toNat < 0x400 ∧ addr.toNat % 0x80 < 0x10)) := by
  revert addr
  decide +kernel

theorem WellFormedForm.registerWrite (addr : BitVec 12) (value : Half) :
    WellFormedForm.Statement (.registerWrite addr value) := plain_addresses addr

theorem WellFormedForm.softReset (value : Half) : WellFormedForm.Statement (.softReset value) := by
  show value.getLsbD 0 = true ↔ value.toNat % 2 = 1
  simp [BitVec.getLsbD]

theorem WellFormedForm.pinReset : WellFormedForm.Statement .pinReset := ⟨fun _ => trivial, fun _ => rfl⟩

theorem WellFormedForm.pinResetEnd : WellFormedForm.Statement .pinResetEnd := ⟨fun _ => trivial, fun _ => rfl⟩

theorem WellFormedForm.controlCodeRefused (q : QueueId) (value : Half) :
    WellFormedForm.Statement (.controlCodeRefused q value) := by
  have code : (value.extractLsb' 0 3).toNat = value.toNat % 8 := by simp [BitVec.extractLsb'_toNat]
  show (value.extractLsb' 0 3 == 0#3 || value.extractLsb' 0 3 == 6#3 || value.extractLsb' 0 3 == 7#3) = true ↔
    (value.toNat % 8 = 0 ∨ 6 ≤ value.toNat % 8)
  rw [← code]
  generalize value.extractLsb' 0 3 = c
  revert c
  decide

end Sys2Proof.Laws
end

