-- ==== Sys2Proof/Tests/Slice0.lean ====
section
/-!
SUPPORT. Tests: the well-formedness checks, the encodings the manual writes out, single commands on small states with
values from the manual's own examples, and for each statement with hypotheses a state that meets them.
-/

namespace Sys2Proof.Tests

open Sys2Proof Sys2Proof.Machine Sys2Proof.Safety

/-! ## Well-formedness: what each check refuses -/

theorem test_clear_needs_bit_31 : WellFormed (.clear 3 0x7FFFFFFF) = false ∧ WellFormed (.clear 3 0x80000000) = true := by
  decide

theorem test_soft_reset_needs_bit_0 : WellFormed (.softReset 0xFFFFFFFE) = false ∧ WellFormed (.softReset 1) = true := by
  decide

/-- Codes 1 and 5 name control commands; 0, 6 and 7 do not, whatever bits 31:3 hold (R183). -/
theorem test_refused_code_names_no_command :
    WellFormed (.controlCodeRefused 0 1) = false ∧ WellFormed (.controlCodeRefused 0 0xFFFFFFFD) = false ∧
      WellFormed (.controlCodeRefused 0 0) = true ∧ WellFormed (.controlCodeRefused 0 0xFFFFFFFE) = true := by
  decide

/-- XCFG has a behaviour of its own, 0x00C names no register, XSTAT is read-only; 0x28C is Q1STAGE3 (R179). -/
theorem test_register_write_reaches_plain_register :
    WellFormed (.registerWrite 0x004 0) = false ∧ WellFormed (.registerWrite 0x00C 0) = false ∧
      WellFormed (.registerWrite 0x008 0) = false ∧ WellFormed (.registerWrite 0x28C 0) = true := by
  decide

/-- No row of the table gives bits, so no word spells a command. -/
theorem test_no_word_spells_a_command : decodeTableWord 32 0x80000000 = none := by decide

/-! ## Encodings the manual writes out -/

/-- The ACCUM of section 11.6: 0x000B2891, 0x02000064, 0x40001388, 16. -/
theorem test_encoding_of_accum :
    Parts.decode .mib16 #v[0x000B2891, 0x02000064, 0x40001388, 0x00000010] =
      .ok (.job { parts := #v[0x000B2891, 0x02000064, 0x40001388, 0x00000010]
                  work := .accum .addu .w32 (.bank 3 100) (.ext 5000), priority := 2, report := .always
                  tag := some 5, count := 16 }) := by
  decide

/-- R28: start index 496 with entry count 512 is legal, and is 32 bursts. -/
theorem test_encoding_of_tabload :
    Parts.decode .mib16 #v[0x00004002, 0x0200000A, 0x020001F0, 0] =
      .ok (.job { parts := #v[0x00004002, 0x0200000A, 0x020001F0, 0]
                  work := .tabload 3 10 496, priority := 0, report := .onFault, tag := none, count := 32 }) := by
  decide

/-- A WAIT with fail-on-poison on tags 3 and 4, and a NOTE with mark 0x00A1 (R185). -/
theorem test_encoding_of_wait_and_note :
    Parts.decode .mib16 #v[0x00010003, 0x00000018, 0, 0] = .ok (.wait 0x18 true) ∧
      Parts.decode .mib16 #v[0x00000004, 0x000000A1, 0, 0] = .ok (.note 0xA1 false) := by
  decide

/-- The all-zero command is BAD_KIND (R185); count 0 with a bad form is BAD_FORM, and with a good form BAD_LENGTH (R26). -/
theorem test_decode_faults :
    Parts.decode .mib16 #v[0, 0, 0, 0] = .error .badKind ∧
      Parts.decode .mib16 #v[0x00000001, 0x01800000, 0x40000000, 0] = .error .badForm ∧
      Parts.decode .mib16 #v[0x00000001, 0x00800000, 0x40000000, 0] = .error .badLength := by
  decide

/-- The two entries of R186: 0x80100190 and 0xC000005A. -/
theorem test_segment_entries :
    SegEntry.ofHalf 0x80100190 = { valid := true, stop := false, lengthMinusOne := 1, base := 400 } ∧
      SegEntry.toHalf { valid := true, stop := true, lengthMinusOne := 0, base := 90 } = 0xC000005A := by
  decide

/-! ## Arithmetic, from the examples of chapter 05 -/

/-- At width 16, 0xFFFF plus 0x0002 is 0x0001 (R90). -/
theorem test_add_wraps : apply .add (0xFFFF#16) (0x0002#16) = (0x0001#16, false) := by decide

/-- At width 8: 64 + 63 is 127 without a clamp, 64 + 64 is 127 with one, −128 + 0 is −128 without (R91). -/
theorem test_adds_holds :
    apply .adds (64#8) (63#8) = (127#8, false) ∧ apply .adds (64#8) (64#8) = (127#8, true) ∧
      apply .adds (0x80#8) (0#8) = (0x80#8, false) := by
  decide

/-- At width 8, MAXS of 0x80 and 0x01 is 0x01, and MAXU of the same two is 0x80 (R93). -/
theorem test_max_readings : apply .maxs (0x80#8) (1#8) = (1#8, false) ∧ apply .maxu (0x80#8) (1#8) = (0x80#8, false) := by
  decide

/-- At width 8 under ADDU, 200, 100, 100 gives 255 with two clamps, and 100, 100, 200 gives 255 with one (R101). -/
theorem test_addu_count_depends_on_order :
    (foldSources .addu .w8 [mkBurst fun _ => 200, mkBurst fun _ => 100, mkBurst fun _ => 100]).2 = 16 ∧
      (foldSources .addu .w8 [mkBurst fun _ => 100, mkBurst fun _ => 100, mkBurst fun _ => 200]).2 = 8 := by
  decide +kernel

/-! ## Small states -/

/-- The state that a command leaves. -/
def after (c : Instr) (s : State) : State :=
  match exec c s with
  | .next t => t
  | .fault _ | .refused _ => s

/-- A queue in a state, holding commands numbered from 0. -/
def holding (st : QueueState) (ps : List Parts) : Queue :=
  { Queue.reset with
    state := st
    commands := ps.zipIdx.map fun x => { parts := x.1, seq := BitVec.ofNat 16 x.2 }
    nextSeq := BitVec.ofNat 16 ps.length
    halt := if st = .halted then some { code := .badKind, origin := .decode, seq := 0 } else none }

/-- Reset, with Q0 in a state and holding commands. -/
def held (st : QueueState) (ps : List Parts) : State := State.reset.setQueue 0 (holding st ps)

/-- A COPY from bank 1 burst 0 to bank 2 burst 0, untagged, ALWAYS. -/
def copyParts (count : Half) : Parts := #v[0x00000001, 0x00800000, 0x01000000, count]

/-- A WAIT on tag 3 alone; with fail-on-poison when the flag is set. -/
def waitParts (flag : Bool) : Parts := #v[if flag then 0x00010003 else 0x00000003, 0x00000008, 0, 0]

/-- A NOTE with mark 0x0042, the interrupt flag set. -/
def noteParts : Parts := #v[0x00010004, 0x00000042, 0, 0]

/-- A job of Q0, sequence number 0, of so many bursts, its parts left blank. -/
def job (w : Work) (count : Nat) : Job :=
  { queue := 0, seq := 0
    command :=
      { parts := #v[0, 0, 0, 0], work := w, priority := 0, report := .always, tag := none, count := count }
    serialized := false, state := .active, next := 0, done := 0, saturation := 0, status := none, place := none
    cursor := w.walkStart.map Cursor.start, bursts := [] }

/-- Reset, with a job in slot 0, counted by Q0. -/
def running (j : Job) : State :=
  (State.reset.setSlot 0 (some j)).setQueue 0 { holding .running [] with jobs := 1 }

/-- A burst context. -/
def burst (n : Nat) (st : BurstState) (src dst : List Place) (reads : List ReadRequest) (writes : List WriteRequest) :
    Burst :=
  { index := n, state := st, sources := src, dests := dst, reads := reads, writes := writes, failed := false }

/-- A source read of a place at a stage. -/
def srcRead (p : Place) (st : ReadStage) : ReadRequest := { role := .source, place := p, stage := st }

/-- A write of zeros to a place at a stage. -/
def write0 (p : Place) (st : WriteStage) : WriteRequest := { place := p, stage := st, words := zeroBurst }

/-- Eight words 10 to 17. -/
def sampleWords : BurstData := #v[10, 11, 12, 13, 14, 15, 16, 17]

/-- A copy from bank 1 to bank 2 with its first burst's read waiting. -/
def readingJob (count : Nat) : Job :=
  { job (.copy (.bank 1 0) (.bank 2 0)) count with
    next := 1, state := if count = 1 then .draining else .active
    bursts := [burst 0 .reading [.bank 1 0] [.bank 2 0] [srcRead (.bank 1 0) .waiting] []] }

/-- A copy from bank 1 to bank 2 with its first burst's write waiting. -/
def writingJob (count : Nat) : Job :=
  { job (.copy (.bank 1 0) (.bank 2 0)) count with
    next := 1, state := if count = 1 then .draining else .active
    bursts := [burst 0 .writing [.bank 1 0] [.bank 2 0] [srcRead (.bank 1 0) (.returned zeroBurst)]
      [write0 (.bank 2 0) .waiting]] }

/-- Bank 1 burst 0 holds the sample words. -/
def sampleMemory : Memory := Memory.writeBurst [] 1 0 sampleWords

/-- The job's state with the sample in bank 1. -/
def sampled (j : Job) : State := { running j with memory := sampleMemory }

/-- A copy from EXT burst 875 to bank 2 whose read was sent on ID 0, with one more burst in WRITING. -/
def sentJob : Job :=
  { job (.copy (.ext 875) (.bank 2 0)) 3 with
    next := 2
    bursts :=
      [burst 0 .reading [.ext 875] [.bank 2 0] [srcRead (.ext 875) .sent] [],
       burst 1 .writing [.ext 876] [.bank 2 1] [srcRead (.ext 876) (.returned zeroBurst)] [write0 (.bank 2 1) .waiting]] }

/-- What ID 0 holds for that job. -/
def busy0 (accepted : Bool) : BusyId :=
  { slot := 0, burst := 0, role := .read .source, address := 875, accepted := accepted
    timer := if accepted then some 64 else none }

/-- The state of that job and ID. -/
def sentState (accepted : Bool) : State := (running sentJob).setReqId 0 (.busy (busy0 accepted))

/-- A job in POSTING that ended OK, carrying tag 3, in a state whose FIFO is full and on whose posting list it waits. -/
def postingState : State :=
  let j := { job (.fill 0 (.bank 2 0)) 1 with next := 1, done := 1, status := some .ok, state := .posting }
  (running { j with command := { j.command with tag := some 3 } }).setCompletion
    { fifo := List.replicate 64 (.note 3 0 0), waiters := [.slot 0], view := none }

/-! ## One command on a small state -/

/-- A push numbers the command with the next sequence number (R22, R23). -/
theorem test_push_appends :
    ((after (.push 0) (held .stopped [noteParts])).queue 0).commands.map HeldCommand.seq = [0, 1] ∧
      ((after (.push 0) (held .stopped [noteParts])).queue 0).nextSeq = 2 := by
  decide

theorem test_push_refused_when_full :
    ((after (.push 0) (held .stopped (List.replicate 32 noteParts))).queue 0).pushResult = .full := by decide

theorem test_start : ((after (.start 0) State.reset).queue 0).state = .running := by decide

theorem test_stop_keeps_head :
    ((after (.stop 0) (held .fenced [waitParts false])).queue 0).state = .stopped ∧
      ((after (.stop 0) (held .fenced [waitParts false])).queue 0).commands.length = 1 := by
  decide

theorem test_resume_clears_halt :
    ((after (.resume 0) (held .halted [noteParts])).queue 0).halt = none ∧
      ((after (.resume 0) (held .halted [noteParts])).queue 0).state = .running := by
  decide

theorem test_skip_discards_head : ((after (.skip 0) (held .halted [noteParts])).queue 0).commands = [] := by decide

/-- The control result of a write of 0 to QnCTL is REFUSED (R183). -/
theorem test_code_0_refused : ((after (.controlCodeRefused 0 0) State.reset).queue 0).controlResult = .refused := by decide

/-- ABORT cancels the job of a queue that has one: with a read sent it is ENDING, and the queue ABORTING (R39, R83). -/
theorem test_abort_cancels :
    ((after (.abort 0) (sentState true)).queue 0).state = .aborting ∧
      ((after (.abort 0) (sentState true)).slot 0).map Job.status = some (some .cancelled) := by
  decide

/-- The take of a MOVE enters slot 0 and counts; the record carries the bits the mode does not use (R61, R185). -/
theorem test_take_move_enters_slot_0 :
    ((after (.take 0) (held .running [copyParts 16])).slot 0).map (fun j => j.command.count) = some 16 ∧
      ((after (.take 0) (held .running [copyParts 16])).queue 0).jobs = 1 ∧
      ((after (.take 0) (held .running [#v[0x007EB001, 0x00BFFFFF, 0x0103FFFF, 0xFFFFC010]])).slot 0).map
        (fun j => j.command.parts) = some #v[0x007EB001, 0x00BFFFFF, 0x0103FFFF, 0xFFFFC010] := by
  decide

/-- Count 0 halts with BAD_LENGTH, DECODE and the head's number (section 2.11). -/
theorem test_take_bad_length_halts :
    ((after (.take 0) (held .running [copyParts 0])).queue 0).halt =
      some { code := .badLength, origin := .decode, seq := 0 } := by
  decide

/-- Bank burst 1023 plus burst index 1 is bank burst 0 (R3). -/
theorem test_burst_issue_wraps :
    ((after (.burstIssue 0) (running { job (.copy (.bank 1 1023) (.bank 2 0)) 2 with next := 1 })).slot 0).map
      (fun j => j.bursts.map Burst.sources) = some [[.bank 1 0]] := by
  decide

/-- A direct EXT burst at S = 262144 fails at its issue at external word 8 × 262144 (R12, R15). -/
theorem test_burst_issue_out_of_range :
    ((after (.burstIssue 0)
        { running { job (.copy (.ext 262143) (.bank 2 0)) 2 with
            next := 1, bursts := (writingJob 2).bursts } with pending := [] }).slot 0).map Job.place =
      some (some (.ext 2097152)) := by
  decide

/-- The read of a copy returns the words of the bank, and they are the words to write (R71, R73). -/
theorem test_burst_read_take_copies :
    ((after (.burstReadTake 1) (sampled (readingJob 2))).slot 0).map
      (fun j => j.bursts.map fun b => b.writes.map WriteRequest.words) = some [[sampleWords]] := by
  decide

/-- A parity error in word 5 of the burst is BANK_PARITY at bank word 5 (R7, R15). -/
theorem test_burst_read_take_parity :
    (after (.burstReadTake 1)
        { running (readingJob 2) with memory := sampleMemory.write (wordKey 1 5) { data := 0, agrees := false } }
      ).completion.fifo =
      [.job .move (.fault .bankParity) 0 0 none 0 0 (some (.bank 1 5))] := by
  decide

/-- The words are stored, and the only burst of its job posts a record with bursts done 1 (R72, R84). -/
theorem test_burst_write_take_finishes :
    ((after (.burstWriteTake 2) (running (writingJob 1))).memory.readWord 2 7).data = 0 ∧
      (after (.burstWriteTake 2) (running (writingJob 1))).completion.fifo =
        [.job .move .ok 0 0 none 1 0 none] := by
  decide

/-- A word write stores the high and low halves, and a word read returns them (R154, R155). -/
theorem test_word_write_take :
    let s := after .wordWriteTake (after (.apdhiWrite 0x11) (after (.registerWrite 0x044 0x22) State.reset))
    s.memory.readWord 0 0 = { data := 0x0000001100000022, agrees := true } ∧ s.host.apWord = 1 := by
  decide

theorem test_word_read_take :
    let s := after .wordReadTake (after .apdloRead { State.reset with memory := Memory.writeWord [] 0 0 0x1100000022 })
    s.host.readData = 0x22 ∧ s.host.readLatch = 0x11 ∧ s.host.apWord = 0 ∧ s.host.parity = false := by
  decide

/-- After word 8191 the address is word 0 of the same bank (R153). -/
theorem test_apdhi_read_wraps :
    (after .apdhiRead (after (.registerWrite 0x040 0x00031FFF) State.reset)).host.apWord = 0 ∧
      (after .apdhiRead (after (.registerWrite 0x040 0x00031FFF) State.reset)).host.apBank = 3 := by
  decide

theorem test_apstat_write :
    (after (.apstatWrite 1) { State.reset with host := { HostPort.reset with parity := true } }).host.parity = false ∧
      (after (.apstatWrite 2) { State.reset with host := { HostPort.reset with parity := true } }).host.parity = true := by
  decide

/-- The offer takes the lowest FREE ID, not yet accepted, and the pointer names the slot (R135). -/
theorem test_offer_takes_id_0 :
    let s := after .offer (running { job (.copy (.ext 875) (.bank 2 0)) 2 with
      next := 1, bursts := [burst 0 .reading [.ext 875] [.bank 2 0] [srcRead (.ext 875) .waiting] []] })
    s.reqId 0 = .busy (busy0 false) ∧ s.ext.pointer = 0 ∧ s.standingOffer = some 0 := by
  decide

/-- A WRITE on offer shows its ID, its external burst and its eight words (R131). -/
theorem test_offer_shows_write :
    (after .offer (running { job (.fill 0 (.ext 875)) 2 with
      next := 1, bursts := [burst 0 .writing [] [.ext 875] []
        [{ place := .ext 875, stage := .waiting, words := sampleWords }]] })).requestChannel =
      some { id := 0, isWrite := true, address := 875, writeData := some sampleWords } := by
  decide

/-- The acceptance starts the timer from XTIMEOUT, 64 after reset (R137, R148). -/
theorem test_acceptance_starts_timer : (after .acceptance (sentState false)).reqId 0 = .busy (busy0 true) := by decide

/-- A response that names a FREE ID sets STRAY (R142); one that names a QUARANTINED ID frees it (R141). -/
theorem test_response_stray_and_late :
    (after (.response 5 .ok zeroBurst) State.reset).interrupts.stray = true ∧
      (after (.response 5 .ok zeroBurst) (State.reset.setReqId 5 .quarantined)).reqId 5 = .free := by
  decide

/-- The failed request named external burst 875, so the fault address is external word 7000 (R15, R138). -/
theorem test_response_error_place :
    ((after (.response 0 .error zeroBurst) (sentState true)).slot 0).map Job.place = some (some (.ext 7000)) ∧
      ((after (.response 0 .error zeroBurst) (sentState true)).queue 0).state = .halted := by
  decide

theorem test_expiry_quarantines :
    (after (.expiry 0) (sentState true)).reqId 0 = .quarantined ∧
      ((after (.expiry 0) (sentState true)).slot 0).map Job.status = some (some (.fault .extTimeout)) := by
  decide

/-- A cancelled ACCUM into external memory whose burst has both its reads sent. -/
def endedAccumJob : Job :=
  { job (.accum .add .w8 (.ext 875) (.ext 900)) 2 with
    next := 1, state := .ending, status := some .cancelled
    bursts := [burst 0 .reading [.ext 875] [.ext 900]
      [srcRead (.ext 875) .sent, { role := .oldDestination, place := .ext 900, stage := .sent }] []] }

/-- The expiry of one of its two sent reads is a second failure: the burst stays, marked failed, and the status stays
CANCELLED (R64, R69, R81). -/
theorem test_expiry_second_failure :
    ((after (.expiry 0) ((running endedAccumJob).setReqId 0 (.busy (busy0 true)))).slot 0).map
        (fun j => (j.status, j.bursts.map fun b => (b.failed, b.reads.length))) =
      some (some .cancelled, [(true, 1)]) := by
  decide

/-- A CLEAR at a count above 0 leaves the poison (R49). -/
theorem test_clear :
    ((after (.clear 3 0x80000000) (State.reset.setTag 3 { count := 1, poison := true })).tag 3).poison = true ∧
      ((after (.clear 3 0x80000000) (State.reset.setTag 3 { count := 0, poison := true })).tag 3).poison = false := by
  decide

theorem test_seg_write :
    (after (.segWrite 11 0x80100190) State.reset).segment 11 =
      { valid := true, stop := false, lengthMinusOne := 1, base := 400 } := by
  decide

/-- Size code 5 names no size: XSIZE stays, XTIMEOUT is taken (R146). -/
theorem test_xcfg_write :
    (after (.xcfgWrite 0x2005) State.reset).ext.xsize = .mib16 ∧
      (after (.xcfgWrite 0x2005) State.reset).ext.xtimeout = 32 := by
  decide

theorem test_icause_write :
    (after (.icauseWrite 1) { State.reset with
      interrupts := { halt := true, note := true, stray := false, mask := 0, threshold := 1 } }).interrupts.halt = false ∧
    (after (.icauseWrite 1) { State.reset with
      interrupts := { halt := true, note := true, stray := false, mask := 0, threshold := 1 } }).interrupts.note = true := by
  decide

theorem test_imask_write : (after (.imaskWrite 0xFFFFFFF6) State.reset).interrupts.mask = 6 := by decide

/-- 64 is taken, 65 is ignored, and bits above the field count (R173). -/
theorem test_icplth_write :
    (after (.icplthWrite 64) State.reset).interrupts.threshold = 64 ∧
      (after (.icplthWrite 65) State.reset).interrupts.threshold = 1 ∧
      (after (.icplthWrite 0x00010005) State.reset).interrupts.threshold = 1 := by
  decide

/-- A pop gives the room to the waiting slot: its record is at the back, and the slot is FREE (R166). -/
theorem test_cfpop_gives_room :
    (after .cfpop postingState).completion.fifo.length = 64 ∧
      (after .cfpop postingState).completion.fifo.getLast? = some (.job .move .ok 0 0 (some 3) 1 0 none) ∧
      (after .cfpop postingState).slot 0 = none := by
  decide

/-- Section 11.6: the ACCUM written to Q1's staging at 0x280 to 0x28C. -/
theorem test_register_write_staging :
    (after (.registerWrite 0x28C 0x10) (after (.registerWrite 0x280 0x000B2891) State.reset)).host.staging[1] =
      #v[0x000B2891, 0, 0, 0x10] := by
  decide

/-- A soft reset keeps the segment table and quarantines an accepted ID (R116, R147). -/
theorem test_soft_reset :
    (after (.softReset 1) ((sentState true).setSegment 7 (SegEntry.ofHalf 0x80100190))).segment 7 =
      SegEntry.ofHalf 0x80100190 ∧
    (after (.softReset 1) (sentState true)).reqId 0 = .quarantined := by
  decide

/-- A pin reset frees every ID and clears the table (R116, R148). -/
theorem test_pin_reset :
    (after .pinReset (sentState true)).reqId 0 = .free ∧
      (after .pinReset ((sentState true).setSegment 7 (SegEntry.ofHalf 0x80100190))).segment 7 = SegEntry.zero ∧
      (after .pinReset State.reset).portResetOutput = true := by
  decide

theorem test_pin_reset_end : (after .pinResetEnd (after .pinReset State.reset)).resetPin = false := by decide

/-! ## The hypotheses of the statements can be met -/

theorem witness_host_port_free : HostPortFree State.reset := ⟨rfl, rfl⟩

/-- PushAppendsOrRefuses: 31 commands, 32 commands, and ABORTING. -/
theorem witness_push :
    HostPortFree (held .stopped (List.replicate 31 noteParts)) ∧
      ((held .stopped (List.replicate 31 noteParts)).queue 0).commands.length < 32 ∧
      ¬((held .stopped (List.replicate 32 noteParts)).queue 0).commands.length < 32 ∧
      ((held .aborting []).queue 0).state = .aborting :=
  ⟨⟨rfl, rfl⟩, by decide, by decide, by decide⟩

/-- StartAndStopResult: a queue to stop, one STOPPED, one HALTED. -/
theorem witness_stop :
    (HostPortFree (held .fenced [waitParts false]) ∧ ((held .fenced [waitParts false]).queue 0).state ≠ .stopped ∧
      ((held .fenced [waitParts false]).queue 0).state ≠ .halted ∧
      ((held .fenced [waitParts false]).queue 0).state ≠ .aborting) ∧
    (HostPortFree (held .stopped []) ∧ ((held .stopped []).queue 0).state = .stopped) ∧
    (HostPortFree (held .halted [noteParts]) ∧ ((held .halted [noteParts]).queue 0).state = .halted) :=
  ⟨⟨⟨rfl, rfl⟩, by decide, by decide, by decide⟩, ⟨⟨rfl, rfl⟩, by decide⟩, ⟨rfl, rfl⟩, by decide⟩

/-- ResumeSkipAndRefusedCodes: HALTED, not HALTED, and the codes 0, 6 and 7. -/
theorem witness_resume :
    (HostPortFree (held .halted [noteParts]) ∧ ((held .halted [noteParts]).queue 0).state = .halted) ∧
    (HostPortFree (held .aborting []) ∧ ((held .aborting []).queue 0).state ≠ .halted) ∧
    ((8 : Half).toNat % 8 = 0) ∧ (6 ≤ (6 : Half).toNat % 8) ∧ (6 ≤ (0xFFFFFFFF : Half).toNat % 8) :=
  ⟨⟨⟨rfl, rfl⟩, by decide⟩, ⟨⟨rfl, rfl⟩, by decide⟩, by decide, by decide, by decide⟩

/-- TakeRefusedOrHalted: not RUNNING, empty, and a head of count 0. -/
theorem witness_take_refused_or_halted :
    ((held .stopped [noteParts]).queue 0).state ≠ .running ∧ ((held .running []).queue 0).commands = [] ∧
    ((held .running [copyParts 0]).queue 0).state = .running ∧
    ((held .running [copyParts 0]).queue 0).commands = { parts := copyParts 0, seq := 0 } :: [] ∧
    (copyParts 0).decode (held .running [copyParts 0]).ext.xsize = .error .badLength ∧
    Poster.queue 0 ∉ (held .running [copyParts 0]).completion.waiters := by
  decide

/-- All slots but slot 7 taken, and all taken, with Q0 RUNNING behind a COPY. -/
def crowded (last : Option Job) : State :=
  { held .running [copyParts 8192] with
    slots := (Vector.replicate 8 (some (job (.fill 0 (.bank 2 0)) 1))).set 7 last }

/-- TakeJobEntersOrStalls: slot 7 the lowest FREE slot, and no FREE slot. -/
theorem witness_take_job :
    ((crowded none).queue 0).state = .running ∧
    ((crowded none).queue 0).commands = { parts := copyParts 8192, seq := 0 } :: [] ∧
    (copyParts 8192).decode (crowded none).ext.xsize =
      .ok (.job { parts := copyParts 8192, work := .copy (.bank 1 0) (.bank 2 0), priority := 0, report := .always
                  tag := none, count := 8192 }) ∧
    ((crowded none).slot 7 = none ∧ ∀ k, k < 7 → ((crowded none).slot k).isSome = true) ∧
    (∀ i, ((crowded (some (job (.fill 0 (.bank 2 0)) 1))).slot i).isSome = true) := by
  decide

/-- A tag 3 state: Q0 RUNNING behind a WAIT on tag 3. -/
def fenceState (flag : Bool) (count : Nat) (poison : Bool) : State :=
  (held .running [waitParts flag]).setTag 3 { count := count, poison := poison }

/-- TakeWaitOutcomes: satisfied and not poisoned, satisfied and poisoned, not satisfied. -/
theorem witness_take_wait :
    (∀ f n p, ((fenceState f n p).queue 0).state = .running ∧
      ((fenceState f n p).queue 0).commands = { parts := waitParts f, seq := 0 } :: []) ∧
    (waitParts false).kind = 3 ∧ (waitParts true).kind = 3 ∧
    ((∀ t : TagId, (waitParts true).waitMask.getLsbD t = true → ((fenceState true 0 false).tag t).count = 0) ∧
      ¬((waitParts true).flag = true ∧
        ∃ t : TagId, (waitParts true).waitMask.getLsbD t = true ∧ ((fenceState true 0 false).tag t).poison = true)) ∧
    ((∀ t : TagId, (waitParts true).waitMask.getLsbD t = true → ((fenceState true 0 true).tag t).count = 0) ∧
      (waitParts true).flag = true ∧
      (∃ t : TagId, (waitParts true).waitMask.getLsbD t = true ∧ ((fenceState true 0 true).tag t).poison = true) ∧
      Poster.queue 0 ∉ (fenceState true 0 true).completion.waiters) ∧
    ¬(∀ t : TagId, (waitParts false).waitMask.getLsbD t = true → ((fenceState false 1 false).tag t).count = 0) := by
  refine ⟨fun f n p => ⟨rfl, rfl⟩, ?_⟩
  decide

/-- Q0 RUNNING behind a NOTE, with so many records in the FIFO. -/
def noteState (n : Nat) : State :=
  (held .running [noteParts]).setCompletion { fifo := List.replicate n (.note 3 0 0), waiters := [], view := none }

/-- TakeNotePostsOrStalls: 63 records and 64 records. -/
theorem witness_take_note :
    (∀ n, ((noteState n).queue 0).state = .running ∧
      ((noteState n).queue 0).commands = { parts := noteParts, seq := 0 } :: []) ∧
    noteParts.kind = 4 ∧ ((noteState 63).completion.fifo.length < 64 ∧ (noteState 63).completion.waiters = []) ∧
    64 ≤ (noteState 64).completion.fifo.length := by
  refine ⟨fun n => ⟨rfl, rfl⟩, ?_⟩
  decide

/-- FormRules and DecodeChecksInOrder: legal forms, and a COPY with two source banks. -/
theorem witness_forms :
    (MoveFormLegal (copyParts 1) ∧ MoveFormLegal #v[0x00000001, 0x4003FFFF, 0x01000000, 1]) ∧
    (TabloadFormLegal #v[0x00004002, 0x0200000A, 0x020001F0, 0] ∧
      Parts.kind #v[0x00004002, 0x0200000A, 0x020001F0, 0] = 2) :=
  ⟨⟨⟨by decide, .inl ⟨by decide, .inl ⟨by decide, by decide⟩, .inl ⟨by decide, by decide⟩, by decide⟩⟩,
      ⟨by decide, .inl ⟨by decide, .inr (.inl (by decide)), .inl ⟨by decide, by decide⟩, by decide⟩⟩⟩,
    ⟨by decide, by decide, by decide, by decide⟩, by decide⟩

/-- DecodeChecksInOrder: counts 0, 1, 8192 and 8193; both sides of S; the kinds. -/
theorem witness_decode :
    (copyParts 1).kind = 1 ∧ (copyParts 0).moveCount = 0 ∧ (copyParts 1).moveCount = 1 ∧ (copyParts 8192).moveCount = 8192 ∧
    8192 < (copyParts 8193).moveCount ∧ ¬BeyondExternal .mib16 1 0x4003FFFF ∧ BeyondExternal .mib16 2 0x4003FFFF ∧
    Parts.kind #v[5, 0, 0, 0] = 5 := by
  unfold BeyondExternal
  decide

/-- SerializedExactlyOnOverlap: a count of 1, and a copy whose sides overlap at count 2. -/
theorem witness_serialized :
    1 ≤ (job (.copy (.bank 1 0) (.bank 1 1)) 1).command.count ∧ SidesOverlap 2 (.bank 1 0) (.bank 1 1) :=
  ⟨by decide, .inl ⟨1, 0, 1, rfl, rfl, ⟨1, 0, by decide, by decide, by decide⟩, by decide⟩⟩

/-- Q0 FENCED on tag 3, which has a job in slot 0, and Q1 STOPPED. -/
def drainState (flag : Bool) : State :=
  (held .fenced [waitParts flag]).setTag 3 { count := 1, poison := false }

/-- ReleaseTagDrains: the count 1 and 2, a FENCED queue that names the tag, and queues that do not. -/
theorem witness_release_tag :
    ((drainState true).tag 3).count = 1 ∧ ((fenceState true 2 false).tag 3).count ≠ 1 ∧
    ((drainState true).queue 1).state ≠ .fenced ∧ ((drainState true).queue 0).state = .fenced ∧
    ((drainState true).queue 0).commands = { parts := waitParts true, seq := 0 } :: [] ∧
    (waitParts true).waitMask.getLsbD (3 : TagId) = true ∧
    (∀ x : TagId, (waitParts true).waitMask.getLsbD x = true →
      (((drainState true).setTag 3 { count := 0, poison := true }).tag x).count = 0) ∧
    ((waitParts true).flag = true ∧ ∃ x : TagId, (waitParts true).waitMask.getLsbD x = true ∧
      (((drainState true).setTag 3 { count := 0, poison := true }).tag x).poison = true) ∧
    ¬((waitParts false).flag = true) := by
  decide

/-- Q0 RUNNING behind a WAIT on tag 3, and a job of Q1 that carries tag 5. -/
def otherTagState : State :=
  ((fenceState false 0 false).setTag 5 { count := 1, poison := false }).setSlot 0
    (some { job (.fill 0 (.bank 2 0)) 1 with
      queue := 1
      command := { (job (.fill 0 (.bank 2 0)) 1).command with tag := some 5 } })

theorem witness_satisfied_fence :
    TagsCounted otherTagState ∧ (otherTagState.queue 0).state = .running ∧
    (otherTagState.queue 0).commands = { parts := waitParts false, seq := 0 } :: [] ∧ (waitParts false).kind = 3 ∧
    (∃ t, exec (.take 0) otherTagState = .next t ∧ (t.queue 0).commands = []) ∧
    ∃ j, otherTagState.slot 0 = some j ∧ j.command.tag = some 5 :=
  ⟨by unfold TagsCounted; decide, by decide, by decide, by decide, ⟨_, rfl, by decide⟩, ⟨_, rfl, by decide⟩⟩

/-- Q1 or Q0 STALLED(SLOT) behind a COPY, with the pointer at Q0. -/
def stalledState (q : QueueId) : State :=
  { State.reset.setQueue q (holding .stalledSlot [copyParts 4]) with slotPointer := 0 }

/-- SlotGrantRoundRobin: no queue waits; the first after the pointer waits; only the last does. -/
theorem witness_slot_grant :
    (∀ q, (State.reset.queue q).state ≠ .stalledSlot) ∧
    ((stalledState 1).queue ((stalledState 1).slotPointer + 1 + 0)).state = .stalledSlot ∧
    (∀ m : Fin 4, m < 3 → ((stalledState 0).queue ((stalledState 0).slotPointer + 1 + m)).state ≠ .stalledSlot) ∧
    ((stalledState 0).queue ((stalledState 0).slotPointer + 1 + 3)).state = .stalledSlot ∧
    ((stalledState 0).queue ((stalledState 0).slotPointer + 1 + 3)).commands = { parts := copyParts 4, seq := 0 } :: [] ∧
    (copyParts 4).job =
      some { parts := copyParts 4, work := .copy (.bank 1 0) (.bank 2 0), priority := 0, report := .always
             tag := none, count := 4 } := by
  decide

/-- The premises of BurstIssueResult hold of a job in slot 0 that resolves to these places. -/
abbrev MayIssue (w : Work) (src dst : List Place) : Prop :=
  (running (job w 1)).slot 0 = some (job w 1) ∧ (job w 1).state = .active ∧ (job w 1).next < (job w 1).command.count ∧
    (job w 1).inFlight < (job w 1).limit ∧
    resolveBurst (running (job w 1)).ext.xsize (running (job w 1)).segments (job w 1).next (job w 1).command.work
      (job w 1).cursor = (.ok (src, dst), none)

/-- BurstIssueResult: a FILL, a COPY, and an ACCUM with its key free, held, and the table full. -/
theorem witness_burst_issue :
    MayIssue (.fill 7 (.bank 2 3)) [] [.bank 2 3] ∧ MayIssue (.copy (.bank 1 0) (.bank 2 3)) [.bank 1 0] [.bank 2 3] ∧
    MayIssue (.accum .adds .w8 (.bank 1 0) (.bank 2 3)) [.bank 1 0] [.bank 2 3] ∧
    (Work.copy (.bank 1 0) (.bank 2 3)).readsOldDestination = false ∧
    (Work.accum .adds .w8 (.bank 1 0) (.bank 2 3)).readsOldDestination = true ∧
    (∀ e ∈ State.reset.interlock.table, e.key ≠ Place.bank 2 3) ∧ State.reset.interlock.table.length < 16 ∧
    16 ≤ (List.range 16).length := by
  decide

/-- A copy whose second burst lies beyond S, with its first burst in WRITING. -/
def beyondJob : Job :=
  { job (.copy (.ext 262143) (.bank 2 0)) 2 with next := 1, bursts := (writingJob 2).bursts }

theorem witness_issue_failure :
    (running beyondJob).slot 0 = some beyondJob ∧ beyondJob.state = .active ∧ beyondJob.next < beyondJob.command.count ∧
    beyondJob.inFlight < beyondJob.limit ∧
    resolveBurst (running beyondJob).ext.xsize (running beyondJob).segments beyondJob.next beyondJob.command.work
      beyondJob.cursor = (.error { fault := .extRange, place := .ext 2097152 }, none) ∧
    ((running beyondJob).queue beyondJob.queue).state ≠ .aborting ∧
    beyondJob.bursts.Pairwise (fun b c => b.index < c.index) ∧ burstsAtEnding beyondJob.bursts ≠ [] := by
  decide

/-- SideAddressAtIndex: the last burst below S, and S itself. -/
theorem witness_side_address :
    (262142#22).toNat + 1 < XSize.mib16.bursts ∧ XSize.mib16.bursts ≤ (262142#22).toNat + 2 := by
  decide

/-- WalkUsesRunInOrder: a cursor within a run; a run that ends at G with stop set, one with stop clear, one a segment too
long, an invalid one. -/
theorem witness_walk :
    ((Cursor.start 0).load (SegEntry.ofHalf 0x80100190)).left ≠ 0 ∧
    (∀ n : Fin 4, (Cursor.start (Fin.castLE (by omega) n)).left = 0 ∧
      (Cursor.start (Fin.castLE (by omega) n)).stopHeld = false) ∧
    ((SegEntry.ofHalf 0xC3F0FFC0).valid = true ∧ (SegEntry.ofHalf 0xC3F0FFC0).stop = true ∧
      (SegEntry.ofHalf 0xC3F0FFC0).base.toNat + (SegEntry.ofHalf 0xC3F0FFC0).runLength = XSize.mib16.segments) ∧
    (SegEntry.ofHalf 0x80100190).stop = false ∧
    ((SegEntry.ofHalf 0xC3F0FFC1).valid = true ∧
      XSize.mib16.segments < (SegEntry.ofHalf 0xC3F0FFC1).base.toNat + (SegEntry.ofHalf 0xC3F0FFC1).runLength) ∧
    SegEntry.zero.valid = false := by
  decide

/-- The read that the copy's burst waits for. -/
def waitingRead : ReadRequest := srcRead (.bank 1 0) .waiting

/-- ArbiterOrder and BankReadReturns: the port chooses the waiting read of a running copy; an access held at the port's
bank, and one held at another. -/
theorem witness_bank_read :
    (sampled (readingJob 2)).bankChoice 1 = (readingJob 2).bursts.head?.map (fun b => (0, readingJob 2, b)) ∧
    (∃ b, (readingJob 2).bursts.head? = some b ∧ b.reads.find? (ReadRequest.waitsAtBank 1) = some waitingRead ∧
      b.failed = false) ∧
    (readingJob 2).isRunning = true ∧ (readingJob 2).command.work.kind = .move ∧
    (∀ n, ((sampled (readingJob 2)).memory.readWord 1 (burstWord 0 n)).agrees = true) ∧
    (HeldAccess.wordRead 1 0).bank = 1 ∧ (HeldAccess.wordRead 2 0).bank ≠ 1 :=
  ⟨by decide, ⟨_, rfl, by decide, by decide⟩, by decide, by decide, by decide, by decide, by decide⟩

/-- A copy in ENDING whose burst waits for its read. -/
def endedReadingJob : Job := { readingJob 2 with state := .ending, status := some .cancelled }

/-- BankReadReturns, a read of a job in ENDING, without and with a parity error. -/
theorem witness_bank_read_discarded :
    (∃ b, (sampled endedReadingJob).bankChoice 1 = some (0, endedReadingJob, b) ∧
      b.reads.find? (ReadRequest.waitsAtBank 1) = some waitingRead) ∧ endedReadingJob.isRunning = false ∧
    waitingRead.place = .bank 1 0 ∧
    (∀ n, ((sampled endedReadingJob).memory.readWord 1 (burstWord 0 n)).agrees = true) ∧
    ∃ n, ((sampleMemory.write (wordKey 1 7) { data := 0, agrees := false }).readWord 1 (burstWord 0 n)).agrees = false :=
  ⟨⟨_, rfl, by decide⟩, by decide, by decide, by decide, ⟨7, by decide⟩⟩

/-- CombineComputes: two source reads and the old destination. -/
theorem witness_combine :
    [Place.bank 3 0].length = [zeroBurst].length ∧
    [srcRead (.bank 1 0) (.returned sampleWords), srcRead (.bank 3 0) (.returned zeroBurst)] =
      ((Place.bank 1 0 :: [.bank 3 0]).zip (sampleWords :: [zeroBurst])).map
        (fun x => { role := .source, place := x.1, stage := .returned x.2 }) :=
  ⟨rfl, rfl⟩

/-- A TABLOAD from bank 1 burst 0 to the entries from 496, its only burst's read waiting. -/
def tabloadJob : Job :=
  { job (.tabload 1 0 496) 2 with
    next := 1, bursts := [burst 0 .reading [.bank 1 0] [] [srcRead (.bank 1 0) .waiting] []] }

theorem witness_tabload :
    (∃ b, (sampled tabloadJob).bankChoice 1 = some (0, tabloadJob, b) ∧ b.reads = [waitingRead] ∧ b.failed = false) ∧
    tabloadJob.isRunning = true ∧ tabloadJob.command.work = .tabload 1 0 496 ∧
    (∀ n, ((sampled tabloadJob).memory.readWord 1 (burstWord 0 n)).agrees = true) :=
  ⟨⟨_, rfl, by decide, by decide⟩, by decide, by decide, by decide⟩

/-- A copy with one burst reading and one in WRITING. -/
def twoBurstJob : Job :=
  { readingJob 3 with
    next := 2
    bursts := (readingJob 3).bursts ++
      [burst 1 .writing [.bank 1 1] [.bank 2 1] [srcRead (.bank 1 1) (.returned zeroBurst)] [write0 (.bank 2 1) .waiting]] }

/-- Bank 1 burst 0 with its last word in error. -/
def parityState : State :=
  { running twoBurstJob with memory := sampleMemory.write (wordKey 1 7) { data := 0, agrees := false } }

theorem witness_parity :
    (∃ b, parityState.bankChoice 1 = some (0, twoBurstJob, b) ∧
      b.reads.find? (ReadRequest.waitsAtBank 1) = some waitingRead ∧ b.failed = false ∧
      ∃ c ∈ twoBurstJob.bursts, c.index ≠ b.index ∧ c.state = .writing ∧ c.failed = false) ∧
    waitingRead.place = .bank 1 0 ∧ twoBurstJob.isRunning = true ∧
    (parityState.queue twoBurstJob.queue).state ≠ .aborting ∧
    twoBurstJob.bursts.Pairwise (fun b c => b.index < c.index) ∧
    (parityState.memory.readWord 1 (burstWord 0 7)).agrees = false ∧
    (∀ m : Fin 8, m < 7 → (parityState.memory.readWord 1 (burstWord 0 m)).agrees = true) :=
  ⟨⟨_, rfl, by decide, by decide, by decide⟩, by decide, by decide, by decide, by decide, by decide, by decide⟩

/-- A SPREAD to banks 2 and 3 with both writes waiting. -/
def spreadJob : Job :=
  { job (.spread (.bank 1 0) [2, 3] 0) 2 with
    next := 1
    bursts := [burst 0 .writing [.bank 1 0] [.bank 2 0, .bank 3 0] [srcRead (.bank 1 0) (.returned zeroBurst)]
      [write0 (.bank 2 0) .waiting, write0 (.bank 3 0) .waiting]] }

theorem witness_bank_write :
    ∃ b, (running spreadJob).bankChoice 2 = some (0, spreadJob, b) ∧
      b.reads.find? (ReadRequest.waitsAtBank 2) = none ∧
      b.writes.find? (WriteRequest.waitsAtBank 2) = some (write0 (.bank 2 0) .waiting) ∧
      (write0 (.bank 2 0) .waiting).place = .bank 2 0 ∧
      ∃ x ∈ b.writes, x ≠ write0 (.bank 2 0) .waiting ∧ x.stage ≠ .done :=
  ⟨_, rfl, by decide, by decide, by decide, by decide⟩

/-- LastWriteFinishesJob: the last write of a DRAINING job's last burst, and of a job in ENDING. -/
theorem witness_last_write :
    (∃ b, (running (writingJob 1)).bankChoice 2 = some (0, writingJob 1, b) ∧
      b.reads.find? (ReadRequest.waitsAtBank 2) = none ∧
      b.writes.find? (WriteRequest.waitsAtBank 2) = some (write0 (.bank 2 0) .waiting) ∧
      ∀ x ∈ b.writes, x = write0 (.bank 2 0) .waiting ∨ x.stage = .done) ∧
    ∃ b, (running { writingJob 2 with state := .ending, status := some .cancelled }).bankChoice 2 =
        some (0, { writingJob 2 with state := .ending, status := some .cancelled }, b) ∧
      b.writes.find? (WriteRequest.waitsAtBank 2) = some (write0 (.bank 2 0) .waiting) :=
  ⟨⟨_, rfl, by decide, by decide, by decide⟩, ⟨_, rfl, by decide⟩⟩

/-- LastWriteFinishesJob, the finish: each row of the two tables of R84, room and none, and a slot to free. -/
theorem witness_finish :
    SettledAs (writingJob 1) .ok ∧
    SettledAs { job (.fill 0 (.bank 2 0)) 2 with state := .ending, status := some (.fault .extError) } (.fault .extError) ∧
    SettledAs { job (.fill 0 (.bank 2 0)) 2 with state := .ending, status := some .cancelled, done := 1 } .cancelled ∧
    SettledAs { job (.fill 0 (.bank 2 0)) 2 with state := .ending, status := some .cancelled, done := 2 } .ok ∧
    RecordNeeded .always .ok ∧ RecordNeeded .onFault .cancelled ∧ RecordNeeded .never (.fault .extError) ∧
    ¬RecordNeeded .never .cancelled ∧ ¬RecordNeeded .onFault .ok ∧
    (State.reset.completion.fifo.length < 64 ∧ State.reset.completion.waiters = []) ∧
    64 ≤ postingState.completion.fifo.length ∧ ∃ j, postingState.slot 0 = some j ∧ j.status = some .ok := by
  refine ⟨.inl ⟨by decide, rfl⟩, .inr ⟨rfl, .inl ⟨_, rfl, rfl⟩⟩, .inr ⟨rfl, .inr (.inl ⟨rfl, by decide, rfl⟩)⟩,
    .inr ⟨rfl, .inr (.inr ⟨rfl, by decide, rfl⟩)⟩, .inl rfl, .inr (.inl ⟨rfl, by decide⟩), .inr (.inr ⟨_, rfl⟩), ?_, ?_,
    by decide, by decide, ⟨_, rfl, by decide⟩⟩
  · rintro (h | ⟨h, _⟩ | ⟨_, h⟩) <;> cases h
  · rintro (h | ⟨_, h⟩ | ⟨_, h⟩)
    · cases h
    · exact h rfl
    · cases h

/-- An entry for bank 2 burst 0 held by burst 0 of slot 0, and a waiter for the same key. -/
def lockState : State :=
  State.reset.setInterlock
    { table := [{ key := .bank 2 0, slot := 0, burst := 0 }, { key := .bank 2 1, slot := 0, burst := 1 }]
      waiters := [{ key := .bank 2 1, slot := 1, burst := 0 }, { key := .bank 2 0, slot := 1, burst := 1 }] }

/-- ReleaseGrantsOldestEligible: a waiter whose key is still held stands before one whose key is released; and a release
whose key no waiter wants. -/
theorem witness_release_entry :
    InterlockSound lockState ∧ lockState.interlock.waiters.Nodup ∧
    (lockState.interlock.table.filter (fun e => ¬(e.slot = 0 ∧ e.burst = 0))).length + 1 = lockState.interlock.table.length ∧
    lockState.interlock.waiters =
      [{ key := .bank 2 1, slot := 1, burst := 0 }] ++ { key := .bank 2 0, slot := 1, burst := 1 } :: [] ∧
    (∀ x ∈ [({ key := .bank 2 1, slot := 1, burst := 0 } : LockRequest)],
      ∃ e ∈ lockState.interlock.table.filter (fun e => ¬(e.slot = 0 ∧ e.burst = 0)), e.key = x.key) ∧
    (∀ e ∈ lockState.interlock.table.filter (fun e => ¬(e.slot = 0 ∧ e.burst = 0)), e.key ≠ Place.bank 2 0) ∧
    ((State.reset.setInterlock { lockState.interlock with waiters := [] }).interlock.waiters = []) := by
  unfold InterlockSound TableSound WaitersBlocked
  decide

/-- The state before an offer: the read of external burst 875 waits, and ID 0 is QUARANTINED. -/
def offerJob : Job :=
  { job (.copy (.ext 875) (.bank 2 0)) 2 with
    next := 1, bursts := [burst 0 .reading [.ext 875] [.bank 2 0] [srcRead (.ext 875) .waiting] []] }

/-- The state before the offer of a write. -/
def offerWriteJob : Job :=
  { job (.fill 0 (.ext 875)) 2 with
    next := 1, bursts := [burst 0 .writing [] [.ext 875] [] [write0 (.ext 875) .waiting]] }

theorem witness_offer :
    ((running offerJob).setReqId 0 .quarantined).resetPin = false ∧
    (∀ e, (((running offerJob).setReqId 0 .quarantined).reqId e).isOffered = false) ∧
    ((running offerJob).setReqId 0 .quarantined).reqId 1 = .free ∧
    (∀ e : ReqId, e < 1 → ((running offerJob).setReqId 0 .quarantined).reqId e ≠ .free) ∧
    (∃ b, ((running offerJob).setReqId 0 .quarantined).extChoice = some (0, offerJob, b) ∧
      b.reads.find? ReadRequest.waitsAtExt = some (srcRead (.ext 875) .waiting)) ∧
    (∃ b, (running offerWriteJob).extChoice = some (0, offerWriteJob, b) ∧
      b.reads.find? ReadRequest.waitsAtExt = none ∧
      b.writes.find? WriteRequest.waitsAtExt = some (write0 (.ext 875) .waiting) ∧
      ∀ v ∈ b.writes, v.place = .ext 875 → v = write0 (.ext 875) .waiting) ∧
    (∃ e, ((sentState false).reqId e).isOffered = true) ∧ State.reset.extChoice = none :=
  ⟨by decide, by decide, by decide, by decide, ⟨_, rfl, by decide⟩, ⟨_, rfl, by decide, by decide, by decide⟩, by decide,
    by decide⟩

theorem witness_acceptance :
    (sentState false).resetPin = false ∧ (sentState false).reqId 0 = .busy (busy0 false) ∧
    (busy0 false).accepted = false ∧ OneOffer (sentState false) ∧ ∀ e, (State.reset.reqId e).isOffered = false := by
  unfold OneOffer
  decide

/-- StrayLateAndRacingResponses: a FREE, a QUARANTINED, an offered and an accepted ID. -/
theorem witness_response :
    (sentState true).resetPin = false ∧ (sentState true).reqId 15 = .free ∧
    (State.reset.setReqId 15 .quarantined).reqId 15 = .quarantined ∧
    (sentState false).reqId 0 = .busy (busy0 false) ∧ (busy0 false).accepted = false ∧
    (sentState true).reqId 0 = .busy (busy0 true) ∧ (busy0 true).accepted = true ∧ (busy0 true).timer.isSome = true := by
  decide

/-- A FILL of external burst 875 whose write was sent on ID 0. -/
def sentWriteJob : Job :=
  { job (.fill 0 (.ext 875)) 2 with
    next := 1, bursts := [burst 0 .writing [] [.ext 875] [] [write0 (.ext 875) .sent]] }

/-- The state of that FILL and its ID. -/
def sentWriteState : State := (running sentWriteJob).setReqId 0 (.busy { busy0 true with role := .write })

/-- The copy cancelled, its sent read not returned. -/
def endedSentJob : Job := { sentJob with state := .ending, status := some .cancelled }

/-- OkResponseDelivered: a read, one of a job in ENDING, and a write. -/
theorem witness_ok_response :
    ((sentState true).resetPin = false ∧ (sentState true).reqId 0 = .busy (busy0 true) ∧ (busy0 true).accepted = true ∧
      (sentState true).slot (busy0 true).slot = some sentJob ∧
      ∃ b, sentJob.bursts.find? (fun c => c.index = (busy0 true).burst) = some b ∧
        b.reads.find? (fun r => r.isSent && r.role = .source && r.place = .ext 875) = some (srcRead (.ext 875) .sent) ∧
        b.failed = false) ∧
    sentJob.isRunning = true ∧ sentJob.command.work.kind = .move ∧ endedSentJob.isRunning = false ∧
    (sentWriteState.reqId 0 = .busy { busy0 true with role := .write } ∧ sentWriteState.slot 0 = some sentWriteJob ∧
      ∃ b, sentWriteJob.bursts.find? (fun c => c.index = 0) = some b ∧ b.writes = [write0 (.ext 875) .sent]) :=
  ⟨⟨by decide, by decide, by decide, by decide, ⟨_, rfl, by decide, by decide⟩⟩, by decide, by decide, by decide,
    ⟨by decide, by decide, ⟨_, rfl, by decide⟩⟩⟩

/-- ExternalFailureIsFirstFault: a first fault with a burst that stays in flight and one with none; a second failure of a
read and of a write. -/
theorem witness_external_failure :
    (∃ b, sentJob.bursts.find? (fun c => c.index = (busy0 true).burst) = some b ∧ carries (busy0 true) b = true ∧
      b.failed = false ∧ burstsAtEnding (sentJob.putBurst (failedRequest (busy0 true) b)).bursts ≠ []) ∧
    (∃ b, sentWriteJob.bursts.find? (fun c => c.index = 0) = some b ∧
      carries { busy0 true with role := .write } b = true ∧
      burstsAtEnding (sentWriteJob.putBurst (failedRequest { busy0 true with role := .write } b)).bursts = []) ∧
    ((sentState true).queue sentJob.queue).state ≠ .aborting ∧ sentJob.bursts.Pairwise (fun b c => b.index < c.index) ∧
    sentWriteJob.bursts.Pairwise (fun b c => b.index < c.index) ∧ (busy0 true).timer.isSome = true ∧
    endedSentJob.isRunning = false ∧ { sentWriteJob with state := .ending }.isRunning = false ∧
    (∃ b, endedAccumJob.bursts.find? (fun c => c.index = (busy0 true).burst) = some b ∧
      (busy0 true).role = .read .source ∧ carries (busy0 true) b = true ∧
      (failedRequest (busy0 true) b).reads.any ReadRequest.isSent = true) ∧ endedAccumJob.isRunning = false :=
  ⟨⟨_, rfl, by decide, by decide, by decide⟩, ⟨_, rfl, by decide, by decide⟩, by decide, by decide, by decide, by decide,
    by decide, by decide, ⟨_, rfl, by decide, by decide, by decide⟩, by decide⟩

/-- ApertureWordWrite and ApertureWordRead: an access held. -/
theorem witness_aperture :
    (after (.apdhiWrite 5) State.reset).host.held = some (.wordWrite 0 0 (5#32 ++ 0#32)) ∧
      (after .apdloRead State.reset).host.held = some (.wordRead 0 0) := by
  decide

/-- Q1 STALLED(ROOM) behind a NOTE and first on the posting wait list of a full FIFO. -/
def stalledNoteState : State :=
  (State.reset.setQueue 1 (holding .stalledRoom [noteParts])).setCompletion
    { fifo := List.replicate 64 (.note 3 0 0), waiters := [.queue 1], view := none }

/-- PopResult: an empty FIFO, no waiter, a NOTE that waits, and a slot that waits. -/
theorem witness_pop :
    HostPortFree stalledNoteState ∧ State.reset.completion.fifo = [] ∧
    ((noteState 1).completion.fifo = .note 3 0 0 :: [] ∧ (noteState 1).completion.waiters = []) ∧
    (stalledNoteState.completion.fifo = .note 3 0 0 :: List.replicate 63 (.note 3 0 0) ∧
      stalledNoteState.completion.waiters = .queue 1 :: [] ∧
      (stalledNoteState.queue 1).commands = { parts := noteParts, seq := 0 } :: []) ∧
    (HostPortFree postingState ∧ postingState.completion.fifo = .note 3 0 0 :: List.replicate 63 (.note 3 0 0) ∧
      postingState.completion.waiters = .slot 0 :: [] ∧
      ∃ j, postingState.slot 0 = some j ∧ j.status = some .ok) :=
  ⟨⟨rfl, rfl⟩, by decide, by decide, by decide, ⟨rfl, rfl⟩, by decide, by decide, ⟨_, rfl, by decide⟩⟩

/-- NothingTakenUnderReset: the pin asserted, in the condition the reset leaves, with a command waiting. -/
theorem witness_under_reset :
    (after .pinReset State.reset).resetPin = true ∧ ResetHeld (after .pinReset State.reset) ∧
      ∃ t, step ((after .pinReset State.reset).withPending [.pinResetEnd]) = .next t :=
  ⟨by decide, fun _ => rfl, ⟨_, rfl⟩⟩

/-- UnmetCommandsChangeNothing: an access held; a job that may not issue; a port with nothing to choose; a port that
chooses a read and one that chooses a write; no access held; an ID without a timer. -/
theorem witness_unmet :
    ((after .apdloRead State.reset).resetPin = false ∧ (after .apdloRead State.reset).host.held ≠ none) ∧
    (∀ j, (running (readingJob 1)).slot 0 = some j →
      j.state ≠ .active ∨ j.command.count ≤ j.next ∨ j.limit ≤ j.inFlight) ∧
    State.reset.bankChoice 1 = none ∧
    (∃ b, (running (readingJob 1)).bankChoice 1 = some (0, readingJob 1, b) ∧
      b.reads.any (ReadRequest.waitsAtBank 1) = true) ∧
    (∃ b, (running (writingJob 1)).bankChoice 2 = some (0, writingJob 1, b) ∧
      b.reads.any (ReadRequest.waitsAtBank 2) = false) ∧
    State.reset.host.held = none ∧ ∀ b, (sentState false).reqId 0 = .busy b → b.accepted = false ∨ b.timer = none := by
  refine ⟨by decide, ?_, by decide, ⟨_, rfl, by decide⟩, ⟨_, rfl, by decide⟩, by decide, ?_⟩
  · intro j h
    cases h
    decide
  · intro b h
    cases h
    decide

/-- RegisterWriteReaches and ReadBackFields: addresses of no register among the global registers, after the tags, past a
queue block's last register and between the ranges. -/
theorem witness_unmapped : ¬InMap 0x00C ∧ ¬InMap 0x183 ∧ ¬InMap 0x3A4 ∧ ¬InMap 0x400 := by
  unfold InMap NamesRegister
  decide

/-- The last addresses of TAG31, Q3HALT and SEG511 reach them (R177, R179). -/
theorem test_last_named_addresses : InMap 0x17F ∧ InMap 0x3A3 ∧ InMap 0xFFF := by
  unfold InMap NamesRegister
  decide

/-- RegisterWriteReaches: an address of no register, and values written to QnCTL. -/
theorem witness_register_address :
    registerAt 0x00C = none ∧ (0xFFFFFFF9 : Half).toNat % 8 = 1 ∧ (8 : Half).toNat % 8 = 0 ∧ 6 ≤ (0xF : Half).toNat % 8 := by
  decide

/-- ReadBackFields and ViewRegistersShowRecord: a full queue, a full FIFO, a tag at its bound, and a record at its
bounds. -/
theorem witness_read_back :
    (State.reset.resetPin = false ∧ State.reset.interrupts.threshold ≤ 64 ∧ postingState.completion.fifo.length ≤ 64 ∧
      postingState.completion.waiters.length ≤ 12 ∧
      ((State.reset.setTag 31 { count := 8, poison := true }).tag 31).count ≤ 8 ∧
      ∃ h, ((held .halted [noteParts]).queue 0).halt = some h) ∧
    (holding .fenced (List.replicate 32 noteParts)).commands.length ≤ 32 ∧
    (holding .fenced (List.replicate 32 noteParts)).jobs ≤ 8 ∧
    (State.reset.setCompletion
      { State.reset.completion with
        view := some (.job .move (.fault .extError) 1 2 (some 31) 8192 65535 (some (.ext 7000))) }).completion.view =
      some (.job .move (.fault .extError) 1 2 (some 31) 8192 65535 (some (.ext 7000))) ∧ (7000 : Nat) < 2 ^ 32 :=
  ⟨⟨by decide, by decide, by decide, by decide, by decide, ⟨_, rfl⟩⟩, by decide⟩

/-- SoftResetResult: bit 0 clear and set. -/
theorem witness_soft_reset :
    HostPortFree (sentState true) ∧ (0xFFFFFFFE : Half).getLsbD 0 = false ∧ (1 : Half).getLsbD 0 = true :=
  ⟨⟨rfl, rfl⟩, by decide, by decide⟩

/-- SumsHeldInRange: at width 8, sums just beyond each end of the signed range, at both ends, and about the top of the
unsigned range. -/
theorem witness_sums :
    ((2 : Int) ^ (8 - 1) - 1 < (64#8).toInt + (64#8).toInt) ∧ ((64#8).toInt + (63#8).toInt = 2 ^ (8 - 1) - 1) ∧
    ((0x80#8).toInt + (0xFF#8).toInt < -(2 ^ (8 - 1))) ∧ ((0x80#8).toInt + (0#8).toInt = -(2 ^ (8 - 1))) ∧
    (2 ^ 8 - 1 < (255#8).toNat + (1#8).toNat) ∧ ((255#8).toNat + (0#8).toNat = 2 ^ 8 - 1) := by
  decide

/-- FoldOrderMatters: sources permuted under ADD, and a list that is not empty. -/
theorem witness_fold :
    Op.add ≠ .adds ∧ Op.add ≠ .addu ∧ [sampleWords, zeroBurst].Perm [zeroBurst, sampleWords] ∧
      [sampleWords, zeroBurst] ≠ [] ∧ 7 < 64 / Width.w8.bits :=
  ⟨by decide, by decide, .swap _ _ _, by decide, by decide⟩

/-- The command ACCUM, ADDS at width 8, from external burst 875 to bank 2 burst 0, count 2, with the unused bits of part 3
set. -/
def liveParts : Parts := #v[0x00000051, 0x4000036B, 0x01000000, 0xFFFFC002]

/-- An ACCUM of Q0 in slot 0, its first burst in READING with its lock held, its external source read sent on ID 0. -/
def liveJob : Job :=
  { job (.accum .adds .w8 (.ext 875) (.bank 2 0)) 2 with
    command := { (job (.accum .adds .w8 (.ext 875) (.bank 2 0)) 2).command with parts := liveParts }
    next := 1
    bursts :=
      [burst 0 .reading [.ext 875] [.bank 2 0]
        [srcRead (.ext 875) .sent, { role := .oldDestination, place := .bank 2 0, stage := .waiting }] []] }

/-- The state of that job, with the next issue waiting as a command. -/
def liveState : State :=
  (((running liveJob).setReqId 0 (.busy (busy0 true))).setInterlock
    { table := [{ key := .bank 2 0, slot := 0, burst := 0 }], waiters := [] }).withPending [.burstIssue 0]

/-- A job in slot 0 alone. -/
theorem slot_of_live {i : SlotId} {j : Job} (h : liveState.slot i = some j) : i = 0 ∧ j = liveJob := by
  have key : ∀ k : SlotId, k ≠ 0 → liveState.slot k = none := by decide
  by_cases hi : i = 0
  · subst hi
    exact ⟨rfl, (Option.some.inj h).symm⟩
  · rw [key i hi] at h
    cases h

theorem witness_step : ∃ t, step liveState = .next t := ⟨_, rfl⟩

theorem witness_counts : JobsCounted liveState ∧ TagsCounted liveState ∧ AbortingHasJobs liveState := by
  unfold JobsCounted TagsCounted AbortingHasJobs
  decide

/-- An ABORTING queue with its one job cancelled. -/
def abortingState : State := (running endedReadingJob).setQueue 0 { holding .aborting [] with jobs := 1 }

theorem witness_aborting :
    AbortingJobsEnd abortingState ∧ abortingState.slot 0 = some endedReadingJob ∧
    (abortingState.queue endedReadingJob.queue).state = .aborting := by
  have slots : ∀ i, abortingState.slot i = if i = 0 then some endedReadingJob else none := by decide
  refine ⟨fun i j h _ => ?_, by decide, by decide⟩
  rw [slots] at h
  split at h <;> cases h
  decide

theorem witness_queues_ordered : QueuesOrdered (held .running [waitParts true, noteParts]) := by
  unfold QueuesOrdered QueueOrdered
  decide

theorem witness_queues : QueuesSound liveState ∧ FifoSound liveState ∧ StalledOnlyWhenFull liveState := by
  unfold QueuesSound QueueSound FifoSound StalledOnlyWhenFull
  decide

/-- A state whose one job is sound is sound. -/
theorem jobsSound_of_only {s : State} {j : Job} (only : ∀ i k, s.slot i = some k → k = j) (hb : JobBounded j)
    (hp : JobPhased j) : JobsSound s := by
  intro i k h
  obtain rfl := only i k h
  exact ⟨hb, hp⟩

theorem liveJob_sound : JobsSound liveState := by
  refine jobsSound_of_only (fun i k h => (slot_of_live h).2) ?_ ?_
  · unfold JobBounded BurstSound
    refine ⟨by decide, by decide, by decide, by decide, ?_, by decide, by decide, by decide, by decide, by decide⟩
    intro b hb
    obtain rfl := List.mem_singleton.1 hb
    refine ⟨by decide, by decide, by decide, by decide, by decide, by decide, fun r => ?_, by decide⟩
    cases r <;> decide
  · unfold JobPhased
    refine ⟨by decide, by decide, ?_, ?_⟩ <;> intro hs <;> cases hs

theorem readingJob_sound : JobsSound (running (readingJob 2)) := by
  refine jobsSound_of_only (j := readingJob 2) ?_ ?_ ?_
  · intro i k h
    have key : ∀ i : SlotId, i ≠ 0 → (running (readingJob 2)).slot i = none := by decide
    by_cases hi : i = 0
    · subst hi
      exact (Option.some.inj h).symm
    · rw [key i hi] at h
      cases h
  · unfold JobBounded BurstSound
    refine ⟨by decide, by decide, by decide, by decide, ?_, by decide, by decide, by decide, by decide, by decide⟩
    intro b hb
    obtain rfl := List.mem_singleton.1 hb
    refine ⟨by decide, by decide, by decide, by decide, by decide, by decide, fun r => ?_, by decide⟩
    cases r <;> decide
  · unfold JobPhased
    refine ⟨by decide, by decide, ?_, ?_⟩ <;> intro hs <;> cases hs

/-- AbortDiscardsAndCancels: a queue with a job that has a burst which stays in flight, one with none, a job of another
queue, and an ABORTING queue. -/
theorem witness_abort :
    (HostPortFree liveState ∧ (liveState.queue 0).state ≠ .aborting ∧ JobsSound liveState ∧
      liveState.slot 0 = some liveJob ∧ liveJob.queue = 0 ∧ liveJob.isRunning = true ∧
      burstsAtEnding liveJob.bursts ≠ [] ∧ liveJob.bursts.Pairwise (fun b c => b.index < c.index)) ∧
    (JobsSound (running (readingJob 2)) ∧ (running (readingJob 2)).slot 0 = some (readingJob 2) ∧
      (readingJob 2).isRunning = true ∧ burstsAtEnding (readingJob 2).bursts = [] ∧
      (readingJob 2).bursts.Pairwise (fun b c => b.index < c.index)) ∧
    (liveState.queue 1).state ≠ .aborting ∧ liveJob.queue ≠ 1 ∧
    (HostPortFree (held .aborting []) ∧ ((held .aborting []).queue 0).state = .aborting) :=
  ⟨⟨⟨rfl, rfl⟩, by decide, liveJob_sound, rfl, rfl, by decide, by decide, by decide⟩,
    ⟨readingJob_sound, rfl, by decide, by decide, by decide⟩, by decide, by decide, ⟨rfl, rfl⟩, by decide⟩

theorem witness_jobs :
    JobsSound liveState ∧ RecordsSound liveState ∧ SaturationExplained liveState ∧ CommandsCarried liveState := by
  refine ⟨liveJob_sound, ⟨fun r hr => (List.not_mem_nil hr).elim, ?_⟩, ?_, ?_⟩
  · intro r h
    cases h
  · intro i j h _
    obtain ⟨rfl, rfl⟩ := slot_of_live h
    decide
  · intro i j h
    obtain ⟨rfl, rfl⟩ := slot_of_live h
    decide

theorem witness_interlock : InterlockSound liveState ∧ LocksHeld liveState ∧ LocksListed liveState := by
  refine ⟨by unfold InterlockSound TableSound WaitersBlocked; decide,
    ⟨?_, fun w hw => (List.not_mem_nil hw).elim⟩, by decide, ?_, ?_⟩
  · intro i j b h _ _
    obtain ⟨rfl, rfl⟩ := slot_of_live h.1
    obtain rfl := List.mem_singleton.1 h.2
    exact ⟨_, .head _, rfl, rfl, rfl⟩
  · intro e he
    obtain rfl := List.mem_singleton.1 he
    exact ⟨liveJob, _, ⟨rfl, .head _⟩, rfl, rfl, by decide, rfl⟩
  · intro i j b h hw
    obtain ⟨rfl, rfl⟩ := slot_of_live h.1
    obtain rfl := List.mem_singleton.1 h.2
    cases hw

theorem witness_ids : IdsOwned liveState ∧ OneOffer liveState ∧ TimersAccepted liveState := by
  have free : ∀ d : ReqId, d ≠ 0 → liveState.reqId d = .free := by decide
  have only : ∀ {d : ReqId} {b : BusyId}, liveState.reqId d = .busy b → d = 0 ∧ b = busy0 true := by
    intro d b h
    by_cases hd : d = 0
    · subst hd
      exact ⟨rfl, (IdState.busy.inj h).symm⟩
    · rw [free d hd] at h
      cases h
  refine ⟨⟨?_, ?_, ?_⟩, by unfold OneOffer; decide, ?_⟩
  · intro d b h
    obtain ⟨rfl, rfl⟩ := only h
    exact ⟨liveJob, _, ⟨rfl, .head _⟩, rfl, rfl⟩
  · intro d e b c hd he _ _ _
    rw [(only hd).1, (only he).1]
  · intro i j c h
    obtain ⟨rfl, rfl⟩ := slot_of_live h.1
    obtain rfl := List.mem_singleton.1 h.2
    refine ⟨fun r hr hs => ?_, fun w hw => by cases hw⟩
    rcases List.mem_cons.1 hr with rfl | hr
    · exact ⟨0, busy0 true, rfl, rfl, rfl, rfl, rfl⟩
    · obtain rfl := List.mem_singleton.1 hr
      cases hs
  · intro d b h _
    obtain ⟨rfl, rfl⟩ := only h
    rfl

theorem witness_memory : MemorySound (sampled (readingJob 2)) ∧ ThresholdSound liveState := by
  unfold MemorySound ThresholdSound
  decide

end Sys2Proof.Tests
end

/-!
PROOFS. The form rules of chapter 02 (R27, R28): each part of the form check passes exactly on the bits that its rule
allows, and the check fails with BAD_FORM exactly on a breach of the rules of the command's kind.
-/

namespace Sys2Proof.Laws

open Sys2Proof.Machine Sys2Proof.Safety

/-! ### Sides -/

/-- The banks that a side selects are the set bits of its mask. -/
theorem length_sideBanks (part : Half) : (sideBanks part).length = maskCount part := by
  unfold sideBanks maskBanks maskCount
  rw [List.countP_eq_length_filter]
  refine congrArg List.length (List.filter_congr fun b _ => ?_)
  simp [b.isLt]

/-- A space code is BANK, EXT, EXTSEG or the illegal code 3 (R185). -/
theorem sideSpace_cases (part : Half) :
    sideSpace part = 0 ∨ sideSpace part = 1 ∨ sideSpace part = 2 ∨ sideSpace part = 3 := by
  generalize sideSpace part = c
  revert c
  decide

/-- What a one-bank side may be: a BANK side whose mask selects `b` alone, an EXT side, or an EXTSEG side. -/
theorem oneBankSide_eq_some_iff (part : Half) (x : Side) :
    oneBankSide part = some x ↔
      (sideSpace part = 0 ∧ ∃ b, sideBanks part = [b] ∧ x = .bank b (sideAddress part)) ∨
      (sideSpace part = 1 ∧ x = .ext (sideAddress part)) ∨
      (sideSpace part = 2 ∧ x = .extseg (sideAddress part)) := by
  unfold oneBankSide
  rcases sideSpace_cases part with hs | hs | hs | hs
  · rcases hb : sideBanks part with _ | ⟨b, _ | ⟨c, cs⟩⟩ <;> simp [hs, eq_comm]
  · simp [hs, eq_comm]
  · simp [hs, eq_comm]
  · simp [hs]

/-- The side check of R27 passes exactly when the space is legal and a BANK side's mask has exactly one bit. -/
theorem oneBankSide_isSome (part : Half) : (oneBankSide part).isSome = true ↔ OneBankOrExternal part := by
  rw [Option.isSome_iff_exists, OneBankOrExternal, ← length_sideBanks, List.length_eq_one_iff]
  simp only [oneBankSide_eq_some_iff]
  constructor
  · rintro ⟨x, ⟨hs, b, hb, -⟩ | ⟨hs, -⟩ | ⟨hs, -⟩⟩
    · exact .inl ⟨hs, b, hb⟩
    · exact .inr (.inl hs)
    · exact .inr (.inr hs)
  · rintro (⟨hs, b, hb⟩ | hs | hs)
    · exact ⟨_, .inl ⟨hs, b, hb, rfl⟩⟩
    · exact ⟨_, .inr (.inl ⟨hs, rfl⟩)⟩
    · exact ⟨_, .inr (.inr ⟨hs, rfl⟩)⟩

theorem isExtseg_of_oneBankSide {part : Half} {x : Side} (h : oneBankSide part = some x) :
    x.isExtseg = true ↔ sideSpace part = 2 := by
  rcases (oneBankSide_eq_some_iff part x).1 h with ⟨hs, b, -, rfl⟩ | ⟨hs, rfl⟩ | ⟨hs, rfl⟩ <;>
    simp [Side.isExtseg, hs]

theorem manyBankSide_isSome (least : Nat) (part : Half) :
    (manyBankSide least part).isSome = true ↔ sideSpace part = 0 ∧ least ≤ maskCount part := by
  simp [manyBankSide, length_sideBanks]

/-- Two one-bank sides pass when each is legal and not both are EXTSEG. -/
theorem twoSides_isSome (p : Parts) :
    (twoSides p).isSome = true ↔
      OneBankOrExternal p[1] ∧ OneBankOrExternal p[2] ∧ ¬(sideSpace p[1] = 2 ∧ sideSpace p[2] = 2) := by
  rw [← oneBankSide_isSome, ← oneBankSide_isSome]
  unfold twoSides
  rcases hsrc : oneBankSide p[1] with _ | src
  · simp
  · rcases hdst : oneBankSide p[2] with _ | dst
    · simp
    · rw [← isExtseg_of_oneBankSide hsrc, ← isExtseg_of_oneBankSide hdst]
      simp

/-! ### Operator and report policy -/

theorem op_isSome (p : Parts) : p.op.isSome = true ↔ OpLegal p := by
  unfold Parts.op OpLegal
  generalize p[0].extractLsb' 6 4 = c
  revert c
  decide

theorem report_isSome (p : Parts) : p.report.isSome = true ↔ p[0].extractLsb' 14 2 ≠ 3 := by
  unfold Parts.report
  generalize p[0].extractLsb' 14 2 = c
  revert c
  decide

/-! ### The form of a MOVE and of a TABLOAD -/

/-- The mode, sides and operator of a MOVE pass exactly on a row of the table of R27. -/
theorem moveWork_isSome (p : Parts) :
    p.moveWork.isSome = true ↔
      (p.mode = 0 ∧ (twoSides p).isSome = true) ∨
      (p.mode = 1 ∧ (oneBankSide p[2]).isSome = true) ∨
      (p.mode = 2 ∧ p.op.isSome = true ∧ (twoSides p).isSome = true) ∨
      (p.mode = 3 ∧ p.op.isSome = true ∧ (manyBankSide 2 p[1]).isSome = true ∧ (oneBankSide p[2]).isSome = true) ∨
      (p.mode = 4 ∧ (oneBankSide p[1]).isSome = true ∧ (manyBankSide 1 p[2]).isSome = true) := by
  have modes : ∀ m : BitVec 3, m = 0 ∨ m = 1 ∨ m = 2 ∨ m = 3 ∨ m = 4 ∨ m = 5 ∨ m = 6 ∨ m = 7 := by decide
  unfold Parts.moveWork
  rcases modes p.mode with hm | hm | hm | hm | hm | hm | hm | hm
  · cases twoSides p <;> simp [hm]
  · cases oneBankSide p[2] <;> simp [hm]
  · cases p.op <;> cases twoSides p <;> simp [hm]
  · cases p.op <;> cases manyBankSide 2 p[1] <;> cases oneBankSide p[2] <;> simp [hm]
  · cases oneBankSide p[1] <;> cases manyBankSide 1 p[2] <;> simp [hm]
  all_goals simp [hm]

theorem moveForm_isSome (p : Parts) : p.moveForm.isSome = true ↔ MoveFormLegal p := by
  have parts : p.moveForm.isSome = true ↔ p.report.isSome = true ∧ p.moveWork.isSome = true := by
    unfold Parts.moveForm
    cases p.moveWork <;> cases p.report <;> simp
  rw [parts, report_isSome, moveWork_isSome]
  simp only [MoveFormLegal, twoSides_isSome, oneBankSide_isSome, manyBankSide_isSome, op_isSome, and_assoc]

theorem tabloadForm_isSome (p : Parts) : p.tabloadForm.isSome = true ↔ TabloadFormLegal p := by
  unfold Parts.tabloadForm TabloadFormLegal
  rw [← report_isSome, ← length_sideBanks]
  rcases sideBanks p[1] with _ | ⟨b, _ | ⟨c, cs⟩⟩
  · simp
  · cases p.report <;> simp
  · simp

/-! ### BAD_FORM -/

/-- A MOVE is BAD_FORM exactly when its form check fails: the later checks name other reasons (R26). -/
theorem decode_move_badForm {p : Parts} (x : XSize) (hk : p.kind = 1) :
    p.decode x = .error .badForm ↔ p.moveForm = none := by
  unfold Parts.decode
  rw [hk]
  rcases p.moveForm with _ | j
  · simp
  · by_cases hlen : j.count = 0 ∨ 8192 < j.count
    · simp [hlen]
    · by_cases hrange : j.inRange x = true <;> simp [hlen, hrange]

theorem decode_tabload_badForm {p : Parts} (x : XSize) (hk : p.kind = 2) :
    p.decode x = .error .badForm ↔ p.tabloadForm = none := by
  unfold Parts.decode
  rw [hk]
  cases p.tabloadForm <;> simp

/-- Settles O11: the form check of each kind passes exactly on the legal forms, and BAD_FORM is its failure. -/
theorem formRules : Obligations.FormRules := by
  intro x p
  refine ⟨fun hk => ?_, fun hk => ?_⟩
  · rw [decode_move_badForm x hk, ← moveForm_isSome, Option.not_isSome_iff_eq_none]
  · rw [decode_tabload_badForm x hk, ← tabloadForm_isSome, Option.not_isSome_iff_eq_none]

end Sys2Proof.Laws

/-!
PROOFS. The reduction arithmetic of chapter 05 on elements: the sums (R90 to R92) and the comparisons (R93).
-/

namespace Sys2Proof.Laws

open Sys2Proof.Machine

/-! ### Values held in the range of a width -/

theorem bits_pos (width : Width) : 0 < width.bits := by
  cases width <;> decide

section Held

variable {w : Nat}

theorem holdSigned_above (hw : 0 < w) {s : Int} (h : 2 ^ (w - 1) - 1 < s) :
    (holdSigned w s).1.toInt = 2 ^ (w - 1) - 1 ∧ (holdSigned w s).2 = true := by
  have top : (0 : Int) < 2 ^ (w - 1) := by positivity
  rw [holdSigned, if_pos h]
  exact ⟨BitVec.toInt_ofInt_eq_self hw (by omega) (by omega), rfl⟩

theorem holdSigned_below (hw : 0 < w) {s : Int} (h : s < -(2 ^ (w - 1))) :
    (holdSigned w s).1.toInt = -(2 ^ (w - 1)) ∧ (holdSigned w s).2 = true := by
  have top : (0 : Int) < 2 ^ (w - 1) := by positivity
  rw [holdSigned, if_neg (by omega), if_pos h]
  exact ⟨BitVec.toInt_ofInt_eq_self hw (by omega) (by omega), rfl⟩

theorem holdSigned_within (hw : 0 < w) {s : Int} (hlo : -(2 ^ (w - 1)) ≤ s) (hhi : s ≤ 2 ^ (w - 1) - 1) :
    (holdSigned w s).1.toInt = s ∧ (holdSigned w s).2 = false := by
  rw [holdSigned, if_neg (by omega), if_neg (by omega)]
  exact ⟨BitVec.toInt_ofInt_eq_self hw hlo (by omega), rfl⟩

theorem holdUnsigned_above {s : Nat} (h : 2 ^ w - 1 < s) :
    (holdUnsigned w s).1.toNat = 2 ^ w - 1 ∧ (holdUnsigned w s).2 = true := by
  have top : 0 < 2 ^ w := by positivity
  rw [holdUnsigned, if_pos h]
  exact ⟨(BitVec.toNat_ofNat _ _).trans (Nat.mod_eq_of_lt (by omega)), rfl⟩

theorem holdUnsigned_within {s : Nat} (h : s ≤ 2 ^ w - 1) :
    (holdUnsigned w s).1.toNat = s ∧ (holdUnsigned w s).2 = false := by
  have top : 0 < 2 ^ w := by positivity
  rw [holdUnsigned, if_neg (by omega)]
  exact ⟨(BitVec.toNat_ofNat _ _).trans (Nat.mod_eq_of_lt (by omega)), rfl⟩

end Held

/-! ### The sums -/

/-- The wrapping sum is the addition of bit vectors, so it has the laws of that addition. -/
theorem apply_add {w : Nat} (a b : BitVec w) : apply .add a b = (a + b, false) := rfl

/-- Settles O48: ADD is the sum of bit vectors, and ADDS and ADDU are the exact sum held in its range. -/
theorem sumsHeldInRange : Obligations.SumsHeldInRange := by
  intro width a b c
  have hw := bits_pos width
  refine ⟨?wraps, holdSigned_above hw, holdSigned_below hw, holdSigned_within hw, holdUnsigned_above,
    holdUnsigned_within⟩
  simp only [apply_add]
  exact ⟨BitVec.toNat_add a b, trivial, BitVec.add_comm a b, BitVec.add_assoc a b c⟩

/-! ### The comparisons -/

section Readings

variable {w : Nat} (a b : BitVec w)

theorem toInt_apply_maxs : (apply .maxs a b).1.toInt = max a.toInt b.toInt := by
  simp only [apply, max_def, apply_ite BitVec.toInt]

theorem toInt_apply_mins : (apply .mins a b).1.toInt = min a.toInt b.toInt := by
  simp only [apply, min_def, apply_ite BitVec.toInt]

theorem toNat_apply_maxu : (apply .maxu a b).1.toNat = max a.toNat b.toNat := by
  simp only [apply, max_def, apply_ite BitVec.toNat]

theorem toNat_apply_minu : (apply .minu a b).1.toNat = min a.toNat b.toNat := by
  simp only [apply, min_def, apply_ite BitVec.toNat]

/-- An operator that never clamps and acts as m on an injective reading of its operands takes from m that it selects one of
them, and that their order and grouping do not matter. -/
theorem selects_of_reading {α : Type} {op : Op} {read : BitVec w → α} {m : α → α → α} (inj : read.Injective)
    (reads : ∀ x y : BitVec w, read (apply op x y).1 = m (read x) (read y)) (choice : ∀ u v, m u v = u ∨ m u v = v)
    (comm : ∀ u v, m u v = m v u) (assoc : ∀ u v t, m (m u v) t = m u (m v t))
    (never : (apply op a b).2 = false) (c : BitVec w) :
    ((apply op a b).1 = a ∨ (apply op a b).1 = b) ∧ (apply op a b).2 = false ∧
      (apply op a b).1 = (apply op b a).1 ∧ (apply op (apply op a b).1 c).1 = (apply op a (apply op b c).1).1 := by
  refine ⟨?_, never, inj ?_, inj ?_⟩
  · rw [← inj.eq_iff, ← inj.eq_iff (b := b), reads]
    exact choice _ _
  · rw [reads, reads, comm]
  · rw [reads, reads, reads, reads, assoc]

end Readings

/-- Settles O49: each comparison is max or min on the signed or the unsigned reading, and both readings are injective. -/
theorem comparisonsSelect : Obligations.ComparisonsSelect := by
  intro w a b c
  have signed : (BitVec.toInt : BitVec w → Int).Injective := fun _ _ => BitVec.eq_of_toInt_eq
  have unsigned : (BitVec.toNat : BitVec w → Nat).Injective := fun _ _ => BitVec.eq_of_toNat_eq
  refine ⟨toInt_apply_maxs a b, toInt_apply_mins a b, toNat_apply_maxu a b, toNat_apply_minu a b, ?_⟩
  rintro op (rfl | rfl | rfl | rfl)
  · exact selects_of_reading a b signed toInt_apply_maxs max_choice max_comm max_assoc rfl c
  · exact selects_of_reading a b signed toInt_apply_mins min_choice min_comm min_assoc rfl c
  · exact selects_of_reading a b unsigned toNat_apply_maxu max_choice max_comm max_assoc rfl c
  · exact selects_of_reading a b unsigned toNat_apply_minu min_choice min_comm min_assoc rfl c

end Sys2Proof.Laws

/-!
PROOFS. The reduction arithmetic of chapter 05 on words: what each bit of a result word is (R1, R89), and the bitwise
operators (R94).
-/

namespace Sys2Proof.Laws

open Sys2Proof.Machine

/-! ### The bits of a result word -/

/-- Elements of w bits laid side by side from bit 0 up: bit i of the word is bit i mod w of element i / w. -/
theorem getLsbD_elementsJoined {w : Nat} (hw : 0 < w) (f : Nat → BitVec w) (n i : Nat) :
    ((List.range n).foldl (fun acc j => acc ||| ((f j).setWidth 64 <<< (j * w))) (0 : Word)).getLsbD i =
      (decide (i < 64) && decide (i / w < n) && (f (i / w)).getLsbD (i % w)) := by
  induction n with
  | zero => simp
  | succ n ih =>
    have place : i = w * (i / w) + i % w := (Nat.div_add_mod i w).symm
    have inside : i % w < w := Nat.mod_lt i hw
    rw [List.range_succ, List.foldl_append, List.foldl_cons, List.foldl_nil, BitVec.getLsbD_or, ih,
      BitVec.getLsbD_shiftLeft, BitVec.getLsbD_setWidth]
    rcases Nat.lt_trichotomy (i / w) n with below | here | above
    · have : i < n * w := (Nat.div_lt_iff_lt_mul hw).1 below
      simp [below, this, Nat.lt_succ_of_lt below]
    · subst here
      have offset : i - i / w * w = i % w := by rw [Nat.mul_comm]; omega
      have reached : i / w * w ≤ i := Nat.div_mul_le_self i w
      by_cases hi : i < 64
      · have : i % w < 64 := Nat.lt_of_le_of_lt (Nat.mod_le i w) hi
        simp [hi, offset, Nat.not_lt.2 reached, this]
      · simp [hi]
    · have far : w ≤ i - n * w := by
        have : (n + 1) * w ≤ i := (Nat.le_div_iff_mul_le hw).1 above
        rw [Nat.succ_mul] at this
        omega
      have : ¬i / w < n + 1 := by omega
      simp [BitVec.getLsbD_of_ge _ _ far, this, Nat.not_lt_of_gt above]

theorem getLsbD_element {w : Nat} (hw : 0 < w) (x : Word) (i : Nat) :
    (element w (i / w) x).getLsbD (i % w) = x.getLsbD i := by
  rw [element, BitVec.getLsbD_extractLsb', Nat.mul_comm, Nat.div_add_mod]
  simp [Nat.mod_lt i hw]

/-- Each bit of a result word lies in the result element of its own number. -/
theorem getLsbD_applyWord (op : Op) (width : Width) (x y : Word) {i : Nat} (hi : i < 64) :
    (applyWord op width x y).getLsbD i =
      (apply op (element width.bits (i / width.bits) x) (element width.bits (i / width.bits) y)).1.getLsbD
        (i % width.bits) := by
  have fits : i / width.bits < 64 / width.bits := by
    cases width <;> simp only [Width.bits] <;> omega
  rw [applyWord, elementNumbers,
    getLsbD_elementsJoined (bits_pos width) fun j => (apply op (element width.bits j x) (element width.bits j y)).1]
  simp [hi, fits]

/-! ### The bitwise operators -/

section Bitwise

variable (width : Width) (x y : Word)

/-- An operator that acts as g on each bit of its elements acts as g on each bit of the words. -/
theorem applyWord_eq_of_bits {op : Op} {r : Word} (g : Bool → Bool → Bool)
    (elements : ∀ (a b : BitVec width.bits) (i : Nat), (apply op a b).1.getLsbD i = g (a.getLsbD i) (b.getLsbD i))
    (bits : ∀ i, r.getLsbD i = g (x.getLsbD i) (y.getLsbD i)) : applyWord op width x y = r := by
  refine BitVec.eq_of_getLsbD_eq fun i hi => ?_
  have hw := bits_pos width
  rw [getLsbD_applyWord op width x y hi, elements, getLsbD_element hw, getLsbD_element hw, bits]

theorem applyWord_and : applyWord .and width x y = x &&& y :=
  applyWord_eq_of_bits width x y and (fun _ _ _ => BitVec.getLsbD_and) fun _ => BitVec.getLsbD_and

theorem applyWord_or : applyWord .or width x y = x ||| y :=
  applyWord_eq_of_bits width x y or (fun _ _ _ => BitVec.getLsbD_or) fun _ => BitVec.getLsbD_or

theorem applyWord_xor : applyWord .xor width x y = x ^^^ y :=
  applyWord_eq_of_bits width x y xor (fun _ _ _ => BitVec.getLsbD_xor) fun _ => BitVec.getLsbD_xor

/-- An operator whose elements never clamp counts no clamp in a word. -/
theorem clampsWord_eq_zero {op : Op} (never : ∀ a b : BitVec width.bits, (apply op a b).2 = false) :
    clampsWord op width x y = 0 := by
  simp [clampsWord, never]

end Bitwise

/-- Settles O50: on words AND, OR and XOR are the operations of bit vectors at every width, and have their laws. -/
theorem bitwiseIgnoresWidth : Obligations.BitwiseIgnoresWidth := by
  intro width x y z
  refine ⟨applyWord_and width x y, applyWord_or width x y, applyWord_xor width x y, ?_, ?_, ?_, ?_⟩
  · rw [applyWord_and, BitVec.and_self]
  · rw [applyWord_or, BitVec.or_self]
  · rw [applyWord_xor, BitVec.xor_self]; rfl
  rintro op (rfl | rfl | rfl)
  · simp only [applyWord_and]
    exact ⟨clampsWord_eq_zero width x y fun _ _ => rfl, BitVec.and_comm x y, BitVec.and_assoc x y z⟩
  · simp only [applyWord_or]
    exact ⟨clampsWord_eq_zero width x y fun _ _ => rfl, BitVec.or_comm x y, BitVec.or_assoc x y z⟩
  · simp only [applyWord_xor]
    exact ⟨clampsWord_eq_zero width x y fun _ _ => rfl, BitVec.xor_comm x y, BitVec.xor_assoc x y z⟩

end Sys2Proof.Laws

/-!
PROOFS. What a step can do, said once: the happenings that a command comes to, each with what is known when it comes
about; and the banks, which only the two write takes change (R6, R9).
-/

namespace Sys2Proof.Laws

open Sys2Proof.Machine Sys2Proof.Safety

/-! ### The happenings of a step -/

/-- What a command comes to, from the state it finds, and whether it may store in the banks. -/
inductive Happening (s : State) : Bool → State → Prop
  | idle (stores : Bool) : Happening s stores s
  | host (h : HostPort) : Happening s false { s with host := h }
  | commit (q : QueueId) : Happening s false (s.commit q)
  | start (q : QueueId) : Happening s false (s.startQueue q)
  | stop (q : QueueId) : Happening s false (s.stopQueue q)
  | resume (q : QueueId) : Happening s false (s.resumeQueue q)
  | skip (q : QueueId) : Happening s false (s.skipQueue q)
  | abort (q : QueueId) : Happening s false (s.abortQueue q)
  | refuse (q : QueueId) : Happening s false (s.refuseControl q)
  | take (q : QueueId) (c : HeldCommand) (cs : List HeldCommand) (running : (s.queue q).state = .running)
      (head : (s.queue q).commands = c :: cs) : Happening s false (s.takeCommand q c)
  | issue (i : SlotId) (j : Job) (slot : s.slot i = some j) (may : j.mayIssue = true) : Happening s false (s.issueBurst i j)
  | bankRead (p : BankId) (i : SlotId) (j : Job) (b : Burst) (r : ReadRequest) (c : BankId) (k : BankBurst)
      (slot : s.slot i = some j) (burst : b ∈ j.bursts) (read : r ∈ b.reads) (waiting : r.stage = .waiting)
      (place : r.place = .bank c k) :
      Happening s false ((s.setBankPointer p i).readReturns i j b r (s.memory.burstOutcome c k))
  | bankWrite (p : BankId) (i : SlotId) (j : Job) (b : Burst) (w : WriteRequest) (c : BankId) (k : BankBurst)
      (slot : s.slot i = some j) (burst : b ∈ j.bursts) (write : w ∈ b.writes) (waiting : w.stage = .waiting)
      (place : w.place = .bank c k) :
      Happening s true
        ({ s.setBankPointer p i with memory := s.memory.writeBurst c k w.words }.writeDone i j b w)
  | wordWrite (b : BankId) (w : BankWord) (x : Word) (h : HostPort) :
      Happening s true { s with memory := s.memory.writeWord b w x, host := h }
  | offer (d : ReqId) (i : SlotId) (j : Job) (b : Burst) (none : ∀ e, (s.reqId e).isOffered = false)
      (free : s.reqId d = .free) (choice : s.extChoice = some (i, j, b)) : Happening s false (s.offerRequest d i j b)
  | accept (d : ReqId) (b : BusyId) (busy : s.reqId d = .busy b) (timer : Option (BitVec 8)) :
      Happening s false (s.setReqId d (.busy { b with accepted := true, timer := timer }))
  | late (d : ReqId) (quarantined : s.reqId d = .quarantined) : Happening s false (s.setReqId d .free)
  | stray : Happening s false s.strayResponse
  | answer (d : ReqId) (b : BusyId) (x : IdState) (o : ExtOutcome) (busy : s.reqId d = .busy b)
      (accepted : b.accepted = true) (given : x.isBusy = false) : Happening s false ((s.setReqId d x).deliver b o)
  | clear (t : TagId) (v : Half) : Happening s false (s.writeTag t v)
  | segment (m : SegIndex) (v : Half) : Happening s false (s.writeSegment m v)
  | xcfg (v : Half) : Happening s false (s.writeXcfg v)
  | icause (v : Half) : Happening s false (s.writeIcause v)
  | imask (v : Half) : Happening s false (s.writeImask v)
  | icplth (v : Half) : Happening s false (s.writeIcplth v)
  | pop : Happening s false s.popRecord
  | softReset : Happening s false s.softReset
  | pinReset : Happening s false s.pinReset
  | pinResetEnd : Happening s false { s with resetPin := false }

variable {s t : State} {stores : Bool}

theorem happening_hostWrite {f : State → State} (h : Happening s stores (f s)) : Happening s stores (s.hostWrite f) := by
  unfold State.hostWrite
  split
  · exact .idle _
  · split
    · exact h
    · exact .idle _

theorem happening_hostReadAccess {f : State → State} (h : Happening s false (f s)) : Happening s false (s.hostReadAccess f) := by
  unfold State.hostReadAccess
  split
  · exact .host _
  · split
    · exact h
    · exact .idle _

theorem happening_writeControl (s : State) (q : QueueId) (v : Half) : Happening s false (s.writeControl q v) := by
  unfold State.writeControl
  split
  · exact .start q
  · exact .stop q
  · exact .resume q
  · exact .skip q
  · exact .abort q
  · exact .refuse q

theorem happening_writeSysctl (s : State) (v : Half) : Happening s false (s.writeSysctl v) := by
  unfold State.writeSysctl
  split
  · exact .softReset
  · exact .idle _

theorem happening_writeRegister (s : State) (r : Register) (v : Half) : Happening s false (s.writeRegister r v) := by
  cases r with
  | sysctl => exact happening_writeSysctl s v
  | xcfg => exact .xcfg v
  | icause => exact .icause v
  | imask => exact .imask v
  | icplth => exact .icplth v
  | cfpop => exact .pop
  | apaddr => exact .host _
  | apdlo => exact .host _
  | apdhi => exact .host _
  | apstat => exact .host _
  | tag t => exact .clear t v
  | stage q k => exact .host _
  | commit q => exact .commit q
  | ctl q => exact happening_writeControl s q v
  | seg m => exact .segment m v
  | xstat => exact .idle _
  | cfview k => exact .idle _
  | state q => exact .idle _
  | seq q => exact .idle _
  | halt q => exact .idle _

theorem happening_writeAddress (s : State) (addr : BitVec 12) (v : Half) : Happening s false (s.writeAddress addr v) := by
  unfold State.writeAddress
  split
  · exact .idle _
  · exact happening_writeRegister s _ v

theorem happening_take {q : QueueId} (h : execTake q s = .next t) : Happening s false t := by
  unfold execTake at h
  split at h
  · rename_i running head
    cases h
    exact .take q _ _ running head
  · cases h
    exact .idle _

theorem happening_burstIssue {i : SlotId} (h : execBurstIssue i s = .next t) : Happening s false t := by
  unfold execBurstIssue at h
  split at h
  · cases h
    exact .idle _
  · rename_i slot
    split at h
    · rename_i may
      cases h
      exact .issue i _ slot may
    · cases h
      exact .idle _

theorem happening_burstReadTake {p : BankId} (h : execBurstReadTake p s = .next t) : Happening s false t := by
  unfold execBurstReadTake at h
  split at h
  · cases h
    exact .idle _
  · rename_i i j b choice
    obtain ⟨slot, burst, -⟩ := bankChoice_sound choice
    split at h
    · rename_i found
      have waits := List.find?_some found
      cases h
      refine .bankRead p i j b _ _ _ slot burst (List.mem_of_find?_eq_some found) ?_ rfl
      simpa [ReadRequest.waitsAtBank, ReadRequest.isWaiting] using (Bool.and_eq_true_iff.1 waits).1
    · cases h
      exact .idle _

theorem happening_burstWriteTake {p : BankId} (h : execBurstWriteTake p s = .next t) : Happening s true t := by
  unfold execBurstWriteTake at h
  split at h
  · cases h
    exact .idle _
  · rename_i i j b choice
    obtain ⟨slot, burst, -⟩ := bankChoice_sound choice
    split at h
    · cases h
      exact .idle _
    · split at h
      · rename_i c k stage d found
        have waits := List.find?_some found
        cases h
        refine .bankWrite p i j b { place := .bank c k, stage := stage, words := d } c k slot burst
          (List.mem_of_find?_eq_some found) ?_ rfl
        simpa [WriteRequest.waitsAtBank] using (Bool.and_eq_true_iff.1 waits).1
      · cases h
        exact .idle _

theorem happening_wordReadTake (h : execWordReadTake s = .next t) : Happening s false t := by
  unfold execWordReadTake at h
  split at h
  · cases h
    exact .host _
  · cases h
    exact .idle _

theorem happening_wordWriteTake (h : execWordWriteTake s = .next t) : Happening s true t := by
  unfold execWordWriteTake at h
  split at h
  · rename_i b w x _
    cases h
    exact .wordWrite b w x _
  · cases h
    exact .idle _

theorem standingOffer_none_iff (s : State) : s.standingOffer = none ↔ ∀ e, (s.reqId e).isOffered = false := by
  simp [State.standingOffer]

theorem happening_offer (h : execOffer s = .next t) : Happening s false t := by
  unfold execOffer at h
  split at h
  · cases h
    exact .idle _
  · rename_i quiet
    split at h
    · rename_i d i j b free choice
      cases h
      have quiet : s.resetPin = false ∧ s.standingOffer = none := by simpa using quiet
      refine .offer d i j b ((standingOffer_none_iff s).1 quiet.2) ((isFree_iff _).1 ?_) choice
      · exact List.find?_some (p := fun d => (s.reqId d).isFree) free
    · cases h
      exact .idle _

theorem happening_acceptance (h : execAcceptance s = .next t) : Happening s false t := by
  unfold execAcceptance at h
  split at h
  · cases h
    exact .idle _
  · split at h
    · cases h
      exact .idle _
    · split at h
      · rename_i b busy
        cases h
        exact .accept _ b busy _
      · cases h
        exact .idle _

theorem happening_response {d : ReqId} {r : ResponseResult} {data : BurstData} (h : execResponse d r data s = .next t) :
    Happening s false t := by
  unfold execResponse at h
  split at h
  · cases h
    exact .idle _
  · split at h
    · cases h
      exact .stray
    · rename_i quarantined
      cases h
      exact .late d quarantined
    · rename_i b busy
      split at h
      · rename_i accepted
        cases h
        exact .answer d b .free _ busy accepted rfl
      · cases h
        exact .stray

theorem happening_expiry {d : ReqId} (h : execExpiry d s = .next t) : Happening s false t := by
  unfold execExpiry at h
  split at h
  · cases h
    exact .idle _
  · split at h
    · rename_i b busy
      split at h
      · rename_i running
        cases h
        exact .answer d b .quarantined _ busy (Bool.and_eq_true_iff.1 running).1 rfl
      · cases h
        exact .idle _
    · cases h
      exact .idle _

/-- The two write takes. -/
def storesInBanks : Instr → Bool
  | .burstWriteTake _ => true
  | .wordWriteTake => true
  | _ => false

/-- Every command comes to one of the happenings. -/
theorem happening_exec {c : Instr} (h : exec c s = .next t) : Happening s (storesInBanks c) t := by
  cases c with
  | push q => cases h; exact happening_hostWrite (.commit q)
  | start q => cases h; exact happening_hostWrite (.start q)
  | stop q => cases h; exact happening_hostWrite (.stop q)
  | resume q => cases h; exact happening_hostWrite (.resume q)
  | skip q => cases h; exact happening_hostWrite (.skip q)
  | abort q => cases h; exact happening_hostWrite (.abort q)
  | take q => exact happening_take h
  | burstIssue n => exact happening_burstIssue h
  | burstReadTake p => exact happening_burstReadTake h
  | burstWriteTake p => exact happening_burstWriteTake h
  | wordReadTake => exact happening_wordReadTake h
  | wordWriteTake => exact happening_wordWriteTake h
  | offer => exact happening_offer h
  | acceptance => exact happening_acceptance h
  | response d r data => exact happening_response h
  | expiry d => exact happening_expiry h
  | clear t v => cases h; exact happening_hostWrite (.clear t v)
  | segWrite m v => cases h; exact happening_hostWrite (.segment m v)
  | xcfgWrite v => cases h; exact happening_hostWrite (.xcfg v)
  | icauseWrite v => cases h; exact happening_hostWrite (.icause v)
  | imaskWrite v => cases h; exact happening_hostWrite (.imask v)
  | icplthWrite v => cases h; exact happening_hostWrite (.icplth v)
  | cfpop => cases h; exact happening_hostWrite .pop
  | apdhiWrite v => cases h; exact happening_hostWrite (.host _)
  | apdloRead => cases h; exact happening_hostReadAccess (.host _)
  | apdhiRead => cases h; exact happening_hostReadAccess (.host _)
  | apstatWrite v => cases h; exact happening_hostWrite (.host _)
  | registerWrite addr v => cases h; exact happening_hostWrite (happening_writeAddress s addr v)
  | softReset v => cases h; exact happening_hostWrite (happening_writeSysctl s v)
  | pinReset => cases h; exact .pinReset
  | pinResetEnd => cases h; exact .pinResetEnd
  | controlCodeRefused q v => cases h; exact happening_hostWrite (happening_writeControl s q v)

/-- A step idles, or takes off its front command and comes to a happening. -/
theorem happening_step (h : step s = .next t) : ∃ rest stores, Happening (s.withPending rest) stores t := by
  unfold step at h
  split at h
  · rename_i empty
    cases h
    refine ⟨[], false, ?_⟩
    have : s.withPending [] = s := by rw [State.withPending, ← empty]
    rw [this]
    exact .idle _
  · exact ⟨_, _, happening_exec h⟩

/-- A property that the waiting commands do not bear on, and that every happening keeps, is kept by every step. -/
theorem kept_by_step {P : State → Prop} (pending : ∀ s rest, P s → P (s.withPending rest))
    (happening : ∀ {s t stores}, P s → Happening s stores t → P t) (hs : P s) (h : step s = .next t) : P t := by
  obtain ⟨rest, _, hr⟩ := happening_step h
  exact happening (pending s rest hs) hr

/-! ### The banks -/

theorem popRecord_memory (s : State) : s.popRecord.memory = s.memory := by
  unfold State.popRecord
  split
  · rfl
  · exact (outside_giveRoom _).memory

theorem offerRequest_memory (s : State) (d : ReqId) (i : SlotId) (j : Job) (b : Burst) :
    (s.offerRequest d i j b).memory = s.memory := by
  unfold State.offerRequest
  split
  · rfl
  · split <;> rfl

theorem stopQueue_memory (s : State) (q : QueueId) : (s.stopQueue q).memory = s.memory := by
  unfold State.stopQueue
  split <;> rfl

theorem writeTag_memory (s : State) (t : TagId) (v : Half) : (s.writeTag t v).memory = s.memory := by
  unfold State.writeTag
  split <;> rfl

theorem writeIcplth_memory (s : State) (v : Half) : (s.writeIcplth v).memory = s.memory := by
  unfold State.writeIcplth
  split <;> rfl

/-- Every happening but the two write takes leaves the banks as they were. -/
theorem happening_memory (h : Happening s false t) : t.memory = s.memory := by
  cases h with
  | stop q => exact stopQueue_memory s q
  | abort q => exact (outside_abortQueue s q).memory
  | take q c cs => exact (outside_takeCommand s q c).memory
  | issue i j => exact (outside_issueBurst s i j).memory
  | bankRead p i j b r => exact (outside_readReturns _ i j b r _).memory
  | offer d i j b => exact offerRequest_memory s d i j b
  | answer d b x o => exact (outside_deliver _ b o).memory
  | clear t v => exact writeTag_memory s t v
  | icplth v => exact writeIcplth_memory s v
  | pop => exact popRecord_memory s
  | _ => rfl

/-- The write takes keep the canonical form, and every other happening leaves the banks. -/
theorem happening_memorySound (hs : MemorySound s) (h : Happening s stores t) : MemorySound t := by
  have stored : ∀ {m : Memory}, t.memory = m → m.wf → MemorySound t := fun e hm => by
    unfold MemorySound
    exact e ▸ hm
  cases stores with
  | false => exact stored (happening_memory h) hs
  | true =>
    cases h with
    | idle => exact hs
    | bankWrite p i j b w c k => exact stored (outside_writeDone _ i j b w).memory (wf_writeBurst hs c k w.words)
    | wordWrite b w x h => exact wf_writeWord hs b w x

/-- Settles O59: of the happenings only the write takes store in the banks, and they keep the canonical form. -/
theorem banksChangedOnlyByWrites : Obligations.BanksChangedOnlyByWrites := by
  refine ⟨fun c s t h hb hw => ?_, fun s t => kept_by_step (fun _ _ => id) happening_memorySound⟩
  have quiet : storesInBanks c = false := by
    cases c with
    | burstWriteTake p => exact absurd rfl (hb p)
    | wordWriteTake => exact absurd rfl hw
    | _ => rfl
  exact happening_memory (quiet ▸ happening_exec h)

end Sys2Proof.Laws

/-!
PROOFS. The commands of the host and of the queues, one by one (chapters 02, 03, 09, 10, 11): what each changes, and what
a command whose happening cannot come about leaves.
-/

namespace Sys2Proof.Laws

open Sys2Proof.Machine Sys2Proof.Safety

variable {s t : State} {stores : Bool}

/-! ### Every command answers a next state -/

theorem popRecord_pending (s : State) : s.popRecord.pending = s.pending := by
  unfold State.popRecord
  split
  · rfl
  · exact (outside_giveRoom _).pending

theorem offerRequest_pending (s : State) (d : ReqId) (i : SlotId) (j : Job) (b : Burst) :
    (s.offerRequest d i j b).pending = s.pending := by
  unfold State.offerRequest
  split
  · rfl
  · split <;> rfl

theorem stopQueue_pending (s : State) (q : QueueId) : (s.stopQueue q).pending = s.pending := by
  unfold State.stopQueue
  split <;> rfl

theorem writeTag_pending (s : State) (t : TagId) (v : Half) : (s.writeTag t v).pending = s.pending := by
  unfold State.writeTag
  split <;> rfl

theorem writeIcplth_pending (s : State) (v : Half) : (s.writeIcplth v).pending = s.pending := by
  unfold State.writeIcplth
  split <;> rfl

/-- No happening touches the commands waiting. -/
theorem happening_pending (h : Happening s stores t) : t.pending = s.pending := by
  cases h with
  | stop q => exact stopQueue_pending s q
  | abort q => exact (outside_abortQueue s q).pending
  | take q c cs => exact (outside_takeCommand s q c).pending
  | issue i j => exact (outside_issueBurst s i j).pending
  | bankRead p i j b r => exact (outside_readReturns _ i j b r _).pending
  | bankWrite p i j b w => exact (outside_writeDone _ i j b w).pending
  | offer d i j b => exact offerRequest_pending s d i j b
  | answer d b x o => exact (outside_deliver _ b o).pending
  | clear t v => exact writeTag_pending s t v
  | icplth v => exact writeIcplth_pending s v
  | pop => exact popRecord_pending s
  | _ => rfl

/-- No command faults or is refused: there is no such reason to give (log entry 23). -/
theorem exec_next (c : Instr) (s : State) : ∃ t, exec c s = .next t := by
  cases c with
  | take q => simp only [exec, execTake]; split <;> exact ⟨_, rfl⟩
  | burstIssue i =>
    simp only [exec, execBurstIssue]
    split
    · exact ⟨_, rfl⟩
    · split <;> exact ⟨_, rfl⟩
  | burstReadTake p =>
    simp only [exec, execBurstReadTake]
    split
    · exact ⟨_, rfl⟩
    · split <;> exact ⟨_, rfl⟩
  | burstWriteTake p =>
    simp only [exec, execBurstWriteTake]
    split
    · exact ⟨_, rfl⟩
    · split
      · exact ⟨_, rfl⟩
      · split <;> exact ⟨_, rfl⟩
  | wordReadTake => simp only [exec, execWordReadTake]; split <;> exact ⟨_, rfl⟩
  | wordWriteTake => simp only [exec, execWordWriteTake]; split <;> exact ⟨_, rfl⟩
  | offer =>
    simp only [exec, execOffer]
    split
    · exact ⟨_, rfl⟩
    · split <;> exact ⟨_, rfl⟩
  | acceptance =>
    simp only [exec, execAcceptance]
    split
    · exact ⟨_, rfl⟩
    · split
      · exact ⟨_, rfl⟩
      · split <;> exact ⟨_, rfl⟩
  | response d r data =>
    simp only [exec, execResponse]
    split
    · exact ⟨_, rfl⟩
    · split
      · exact ⟨_, rfl⟩
      · exact ⟨_, rfl⟩
      · split <;> exact ⟨_, rfl⟩
  | expiry d =>
    simp only [exec, execExpiry]
    split
    · exact ⟨_, rfl⟩
    · split
      · split <;> exact ⟨_, rfl⟩
      · exact ⟨_, rfl⟩
  | _ => exact ⟨_, rfl⟩

/-- Settles O1: it is the definition of a step. -/
theorem stepTakesFrontCommand : Obligations.StepTakesFrontCommand := ⟨fun _ _ _ => rfl, fun _ => rfl⟩

/-- Settles O2. -/
theorem everyCommandAnswersNext : Obligations.EveryCommandAnswersNext := fun c s => by
  obtain ⟨t, ht⟩ := exec_next c s
  exact ⟨t, ht, happening_pending (happening_exec ht)⟩

/-! ### The host's commands to a queue -/

/-- Settles O3: the three rows of R22 are the three judgements of a push. -/
theorem pushAppendsOrRefuses : Obligations.PushAppendsOrRefuses := by
  intro q s free
  simp only [exec, execPush, hostWrite_of_free free, State.commit, State.modQueue, Queue.push, Queue.judgePush,
    State.staged]
  split_ifs <;> rfl

/-- Settles O4, queue state by queue state. -/
theorem startAndStopResult : Obligations.StartAndStopResult := by
  intro q s free
  simp only [exec, execStart, execStop, hostWrite_of_free free, State.startQueue, State.stopQueue, State.modQueue]
  cases hq : (s.queue q).state <;>
    simp [Queue.withState, Queue.judged, State.leaveWaiters, hq]

/-- The control code of a value written to QnCTL. -/
theorem controlCode_toNat (v : Half) : (v.extractLsb' 0 3).toNat = v.toNat % 8 := by
  simp [BitVec.extractLsb'_toNat]

/-- Codes 0, 6 and 7 name no control command (R34, R183). -/
theorem writeControl_refused (s : State) (q : QueueId) {v : Half} (hv : v.toNat % 8 = 0 ∨ 6 ≤ v.toNat % 8) :
    s.writeControl q v = s.refuseControl q := by
  unfold State.writeControl
  rw [controlCode_toNat]
  split <;> first | omega | rfl

/-- Settles O5: only a HALTED queue resumes or skips. -/
theorem resumeSkipAndRefusedCodes : Obligations.ResumeSkipAndRefusedCodes := by
  intro q s free
  refine ⟨fun halted => ?_, fun other => ?_, fun v hv => ?_⟩
  · simp [exec, execResume, execSkip, hostWrite_of_free free, State.resumeQueue, State.skipQueue, State.modQueue, halted,
      Queue.withState, Queue.pop]
  · simp only [exec, execResume, execSkip, hostWrite_of_free free, State.resumeQueue, State.skipQueue, State.modQueue]
    cases hq : (s.queue q).state <;> simp_all [Queue.judged]
  · simp [exec, execControlCodeRefused, hostWrite_of_free free, writeControl_refused s q hv, State.refuseControl,
      State.modQueue, Queue.judged]

/-! ### TAKE -/

/-- A halt of a queue that is not on the posting wait list. -/
theorem haltQueue_of_notMem {q : QueueId} (r : HaltReason) (hq : Poster.queue q ∉ s.completion.waiters) :
    s.haltQueue q r =
      (s.setQueue q { s.queue q with state := .halted, halt := some r }).setInterrupts
        { s.interrupts with halt := true } := by
  have keep : s.completion.waiters.filter (· ≠ .queue q) = s.completion.waiters :=
    List.filter_eq_self.2 fun p hp => by
      simp only [ne_eq, decide_not, Bool.not_eq_true', decide_eq_false_iff_not]
      exact fun e => hq (e ▸ hp)
  rw [State.haltQueue, keep]
  rfl

/-- A RUNNING queue takes its head. -/
theorem exec_take {q : QueueId} {c : HeldCommand} {cs : List HeldCommand} (running : (s.queue q).state = .running)
    (head : (s.queue q).commands = c :: cs) : exec (.take q) s = .next (s.takeCommand q c) := by
  simp only [exec, execTake, running, head]

/-- A queue that is not RUNNING, or holds no command, takes nothing. -/
theorem exec_take_idle {q : QueueId} (h : (s.queue q).state ≠ .running ∨ (s.queue q).commands = []) :
    exec (.take q) s = .next s := by
  simp only [exec, execTake]
  split
  · rename_i running head
    rcases h with h | h
    · exact absurd running h
    · rw [h] at head
      cases head
  · rfl

/-- Settles O7. -/
theorem takeRefusedOrHalted : Obligations.TakeRefusedOrHalted := by
  refine fun q s => ⟨exec_take_idle, fun c cs e running head fault waits => ?_⟩
  rw [exec_take running head, State.takeCommand, fault]
  simp only
  rw [haltQueue_of_notMem _ waits]

/-- Putting a queue in the state it is in changes nothing. -/
theorem withState_self {x : Queue} {st : QueueState} (h : x.state = st) : x.withState st = x := by
  rw [Queue.withState, ← h]

/-- A RUNNING queue whose head has left. -/
theorem pop_withState_running {x : Queue} {c : HeldCommand} {cs : List HeldCommand} (running : x.state = .running)
    (head : x.commands = c :: cs) : x.pop.withState .running = { x with commands := cs } := by
  rw [Queue.pop, Queue.withState, head, List.tail_cons, ← running]

/-- Settles O8: the slot entered is the first that the search from slot 0 finds FREE. -/
theorem takeJobEntersOrStalls : Obligations.TakeJobEntersOrStalls := by
  intro q s c cs j running head decoded
  have take : exec (.take q) s = .next (s.carryOutJob q c.seq j) := by
    rw [exec_take running head, State.takeCommand, decoded]
  rw [take]
  refine ⟨fun i hi hk => ?enters, fun full => ?stalls⟩
  case enters =>
    have first : s.freeSlotIndex = some i :=
      find_first (by simp [hi]) fun k hki => by simpa using hk k hki
    simp only [State.carryOutJob, first, State.enterSlot, State.modQueue, queue_setSlot,
      pop_withState_running running head]
    congr 1
  case stalls =>
    have none : s.freeSlotIndex = none := find_none fun k => by simpa using full k
    simp only [State.carryOutJob, none]
    rfl

theorem decode_wait {p : Parts} (x : XSize) (hk : p.kind = 3) : p.decode x = .ok (.wait p.waitMask p.flag) := by
  simp [Parts.decode, hk]

theorem decode_note {p : Parts} (x : XSize) (hk : p.kind = 4) : p.decode x = .ok (.note p.mark p.flag) := by
  simp [Parts.decode, hk]

/-- The take of a WAIT evaluates its fence. -/
theorem exec_take_wait {q : QueueId} {c : HeldCommand} {cs : List HeldCommand} (running : (s.queue q).state = .running)
    (head : (s.queue q).commands = c :: cs) (hk : c.parts.kind = 3) :
    exec (.take q) s = .next (s.evaluateFence q c) := by
  rw [exec_take running head, State.takeCommand, decode_wait _ hk]

/-! The three outcomes of a fence (R32, R55). -/

theorem evaluateFence_passes {c : HeldCommand} (q : QueueId)
    (clear : ∀ t : TagId, c.parts.waitMask.getLsbD t = true → (s.tag t).count = 0)
    (clean : ¬(c.parts.flag = true ∧ ∃ t : TagId, c.parts.waitMask.getLsbD t = true ∧ (s.tag t).poison = true)) :
    s.evaluateFence q c = s.modQueue q fun x => x.pop.withState .running := by
  rw [State.evaluateFence, if_pos ((fenceSatisfied_iff s _).2 clear), if_neg]
  rwa [Bool.and_eq_true, fencePoisoned_iff]

theorem evaluateFence_halts {c : HeldCommand} (q : QueueId)
    (clear : ∀ t : TagId, c.parts.waitMask.getLsbD t = true → (s.tag t).count = 0)
    (bad : c.parts.flag = true ∧ ∃ t : TagId, c.parts.waitMask.getLsbD t = true ∧ (s.tag t).poison = true) :
    s.evaluateFence q c = s.haltQueue q { code := .fencePoisoned, origin := .fence, seq := c.seq } := by
  rw [State.evaluateFence, if_pos ((fenceSatisfied_iff s _).2 clear), if_pos]
  rwa [Bool.and_eq_true, fencePoisoned_iff]

theorem evaluateFence_waits {c : HeldCommand} (q : QueueId)
    (busy : ¬∀ t : TagId, c.parts.waitMask.getLsbD t = true → (s.tag t).count = 0) :
    s.evaluateFence q c = s.modQueue q fun x => x.withState .fenced := by
  rw [State.evaluateFence, if_neg (mt (fenceSatisfied_iff s _).1 busy)]

/-- Settles O9: the three outcomes of the fence, for a queue that is RUNNING. -/
theorem takeWaitOutcomes : Obligations.TakeWaitOutcomes := by
  intro q s c cs running head hk
  rw [exec_take_wait running head hk]
  refine ⟨fun clear clean => ?_, fun clear flag bad waits => ?_, fun busy => ?_⟩
  · rw [evaluateFence_passes q clear clean, State.modQueue, pop_withState_running running head]
  · rw [evaluateFence_halts q clear ⟨flag, bad⟩, haltQueue_of_notMem _ waits]
  · rw [evaluateFence_waits q busy]
    rfl

/-- Settles O10: a NOTE posts exactly when there is room and no poster waits. -/
theorem takeNotePostsOrStalls : Obligations.TakeNotePostsOrStalls := by
  intro q s c cs running head hk
  have take : exec (.take q) s = .next (s.carryOutNote q c) := by
    rw [exec_take running head, State.takeCommand, decode_note _ hk]
  rw [take]
  refine ⟨fun hf hw => ?_, fun full => ?_⟩
  · simp only [State.carryOutNote, (hasRoom_iff s).2 ⟨hf, hw⟩, if_true, State.postNote, State.modQueue]
    rw [pop_withState_running (x := (s.post _).queue q) running head]
    rfl
  · have none : s.hasRoom = false := by
      rw [← Bool.not_eq_true, hasRoom_iff]
      rintro ⟨hf, hw⟩
      rcases full with full | full
      · omega
      · exact full hw
    simp only [State.carryOutNote, none, Bool.false_eq_true, if_false]
    rfl

/-- Settles O16: a WAIT that leaves had every tag of its mask at 0, and the counts are those of the slots. -/
theorem satisfiedFenceLeavesNoJob : Obligations.SatisfiedFenceLeavesNoJob := by
  intro q s t c cs counted running head hk step left i j g slot tag
  rw [exec_take_wait running head hk] at step
  cases step
  by_cases clear : ∀ t : TagId, c.parts.waitMask.getLsbD t = true → (s.tag t).count = 0
  case neg =>
    rw [evaluateFence_waits q clear, queue_modQueue_self] at left
    have : c :: cs = cs := head ▸ left
    simp at this
  case pos =>
    have carried : 0 < (s.tag g).count := by
      rw [counted g, jobsWith, List.countP_pos_iff]
      exact ⟨i, List.mem_finRange i, by simp [slot, tag]⟩
    by_contra named
    have := clear g (by simpa using named)
    omega

/-! ### Tags, configuration and interrupts -/

/-- Settles O14. -/
theorem clearResult : Obligations.ClearResult := by
  intro t v s free
  simp only [exec, execClear, hostWrite_of_free free, State.writeTag, Bool.and_eq_true, beq_iff_eq]

theorem clearedBy (a b : Bool) : (a && !b) = if b = true then false else a := by
  cases b <;> simp

/-- The size that a code names has that code. -/
theorem ofCode_code (x : XSize) (v : Half) :
    (v.toNat % 8 ≤ 4 → ((XSize.ofCode (v.extractLsb' 0 3)).getD x).code = v.toNat % 8) ∧
      (5 ≤ v.toNat % 8 → (XSize.ofCode (v.extractLsb' 0 3)).getD x = x) := by
  rw [← controlCode_toNat]
  generalize v.extractLsb' 0 3 = c
  revert c
  cases x <;> decide

/-- Settles O39. -/
theorem configurationWrites : Obligations.ConfigurationWrites := by
  intro s v free
  refine ⟨?_, ?_, ?_, ⟨(XSize.ofCode (v.extractLsb' 0 3)).getD s.ext.xsize, ?_, (ofCode_code _ v).1, (ofCode_code _ v).2⟩,
    fun m => ?_⟩
  · simp only [exec, execIcauseWrite, hostWrite_of_free free, State.writeIcause, clearedBy]
  · simp only [exec, execImaskWrite, hostWrite_of_free free, State.writeImask]
  · simp only [exec, execIcplthWrite, hostWrite_of_free free, State.writeIcplth]
  · simp only [exec, execXcfgWrite, hostWrite_of_free free, State.writeXcfg]
  · simp only [exec, execSegWrite, hostWrite_of_free free, State.writeSegment, SegEntry.ofHalf]

/-- The masked causes are not all 0 exactly when one of the four is true and its mask bit clear. -/
theorem causes_unmasked_iff (halt note stray cpl : Bool) (mask : BitVec 4) :
    (((BitVec.ofBool cpl ++ BitVec.ofBool stray ++ BitVec.ofBool note ++ BitVec.ofBool halt : BitVec 4) &&& ~~~mask) != 0)
        = true ↔
      (halt = true ∧ mask.getLsbD 0 = false) ∨ (note = true ∧ mask.getLsbD 1 = false) ∨
        (stray = true ∧ mask.getLsbD 2 = false) ∨ (cpl = true ∧ mask.getLsbD 3 = false) := by
  revert halt note stray cpl mask
  decide

/-- Settles O38. -/
theorem interruptLineFollowsCauses : Obligations.InterruptLineFollowsCauses := by
  intro s
  unfold State.interruptLine State.causes
  rw [Bool.and_eq_true, causes_unmasked_iff]
  simp [State.cplLevel]

/-! ### The aperture -/

/-- Settles O35. -/
theorem apertureWordWrite : Obligations.ApertureWordWrite := by
  refine ⟨fun v s free => ?_, fun s b w x held => ⟨s.memory.writeWord b w x, ?_, readWord_writeWord_self _ _ _ _, ?_⟩⟩
  · simp only [exec, execApdhiWrite, hostWrite_of_free free, State.writeApdhi]
  · simp only [exec, execWordWriteTake, held, State.advanceAddress]
  · intro c y h
    refine readWord_writeWord_ne _ _ _ _ _ _ ?_
    rintro ⟨rfl, rfl⟩
    exact h ⟨rfl, rfl⟩

/-- Settles O36. -/
theorem apertureWordRead : Obligations.ApertureWordRead := by
  refine ⟨fun s free => ⟨?_, ?_, fun v => ?_⟩, fun s b w held => ?_⟩
  · simp only [exec, execApdloRead, hostReadAccess_of_free free, State.readApdlo]
  · simp only [exec, execApdhiRead, hostReadAccess_of_free free, State.readApdhi, State.advanceAddress]
  · simp only [exec, execApstatWrite, hostWrite_of_free free, State.writeApstat, clearedBy]
  · have latched : (s.host.parity || !(s.memory.readWord b w).agrees) =
        if (s.memory.readWord b w).agrees = true then s.host.parity else true := by
      cases (s.memory.readWord b w).agrees <;> simp
    simp only [exec, execWordReadTake, held, latched]

/-! ### Commands whose happening cannot come about -/

theorem hostWrite_of_held (hr : s.resetPin = false) (hh : s.host.held ≠ none) (f : State → State) : s.hostWrite f = s := by
  simp [State.hostWrite, State.busFree, hr, hh]

theorem hostReadAccess_of_held (hr : s.resetPin = false) (hh : s.host.held ≠ none) (f : State → State) :
    s.hostReadAccess f = s := by
  simp [State.hostReadAccess, State.busFree, hr, hh]

/-- What the host writes, whatever its operands, where the host port takes no write. -/
theorem hostWrites_ignored (h : ∀ f, s.hostWrite f = s) :
    (∀ q, exec (.push q) s = .next s ∧ exec (.start q) s = .next s ∧ exec (.stop q) s = .next s ∧
      exec (.resume q) s = .next s ∧ exec (.skip q) s = .next s ∧ exec (.abort q) s = .next s) ∧
    (∀ v : Half, (∀ q, exec (.controlCodeRefused q v) s = .next s) ∧ (∀ t, exec (.clear t v) s = .next s) ∧
      (∀ m, exec (.segWrite m v) s = .next s) ∧ exec (.xcfgWrite v) s = .next s ∧ exec (.icauseWrite v) s = .next s ∧
      exec (.imaskWrite v) s = .next s ∧ exec (.icplthWrite v) s = .next s ∧ exec (.apdhiWrite v) s = .next s ∧
      exec (.apstatWrite v) s = .next s ∧ exec (.softReset v) s = .next s ∧
      ∀ addr, exec (.registerWrite addr v) s = .next s) ∧
    exec .cfpop s = .next s := by
  have ignored : ∀ f, (Host.Outcome.next (s.hostWrite f) : Host.Outcome State Fault Refusal) = .next s := fun f => by rw [h]
  exact ⟨fun q => ⟨ignored _, ignored _, ignored _, ignored _, ignored _, ignored _⟩,
    fun v => ⟨fun _ => ignored _, fun _ => ignored _, fun _ => ignored _, ignored _, ignored _, ignored _, ignored _,
      ignored _, ignored _, ignored _, fun _ => ignored _⟩, ignored _⟩

/-- A burst is issued only by an ACTIVE job with a burst left, below its limit. -/
theorem mayIssue_iff (j : Job) :
    j.mayIssue = true ↔ j.state = .active ∧ j.next < j.command.count ∧ j.inFlight < j.limit := by
  simp [Job.mayIssue, and_assoc]

theorem exec_burstIssue_idle {i : SlotId}
    (h : ∀ j, s.slot i = some j → j.state ≠ .active ∨ j.command.count ≤ j.next ∨ j.limit ≤ j.inFlight) :
    exec (.burstIssue i) s = .next s := by
  simp only [exec, execBurstIssue]
  split
  · rfl
  · rename_i j slot
    have : ¬j.mayIssue = true := by
      rw [mayIssue_iff]
      have := h j slot
      rintro ⟨active, next, limit⟩
      rcases this with e | e | e
      · exact e active
      · omega
      · omega
    rw [if_neg this]

/-- A BURST_READ_TAKE at a port whose chosen burst has no read waiting there. -/
theorem exec_burstReadTake_other {p : BankId} {i : SlotId} {j : Job} {b : Burst} (hc : s.bankChoice p = some (i, j, b))
    (h : b.reads.any (ReadRequest.waitsAtBank p) = false) : exec (.burstReadTake p) s = .next s := by
  have : b.reads.find? (ReadRequest.waitsAtBank p) = none := by simpa using h
  simp only [exec, execBurstReadTake, hc, this]

/-- A BURST_WRITE_TAKE at a port whose chosen burst has a read waiting there. -/
theorem exec_burstWriteTake_other {p : BankId} {i : SlotId} {j : Job} {b : Burst} (hc : s.bankChoice p = some (i, j, b))
    (h : b.reads.any (ReadRequest.waitsAtBank p) = true) : exec (.burstWriteTake p) s = .next s := by
  simp only [exec, execBurstWriteTake, hc]
  split
  · rfl
  · rename_i none
    rw [List.find?_eq_none] at none
    obtain ⟨r, hr, hw⟩ := List.any_eq_true.1 h
    exact absurd hw (none r hr)

theorem exec_expiry_idle {d : ReqId} (h : ∀ b, s.reqId d = .busy b → b.accepted = false ∨ b.timer = none) :
    exec (.expiry d) s = .next s := by
  simp only [exec, execExpiry]
  split
  · rfl
  · split
    · rename_i b busy
      rcases h b busy with e | e <;> simp [e]
    · rfl

theorem exec_wordReadTake_idle (h : ∀ b w, s.host.held ≠ some (.wordRead b w)) : exec .wordReadTake s = .next s := by
  rw [exec, execWordReadTake]
  split
  · rename_i b w held
    exact absurd held (h b w)
  · rfl

theorem exec_wordWriteTake_idle (h : ∀ b w x, s.host.held ≠ some (.wordWrite b w x)) :
    exec .wordWriteTake s = .next s := by
  rw [exec, execWordWriteTake]
  split
  · rename_i b w x held
    exact absurd held (h b w x)
  · rfl

/-- Settles O42. -/
theorem unmetCommandsChangeNothing : Obligations.UnmetCommandsChangeNothing := by
  intro s
  refine ⟨fun hr hh => ?_, fun i => exec_burstIssue_idle, fun p none => ⟨?_, ?_⟩,
    fun p i j b hc => ⟨exec_burstReadTake_other hc, exec_burstWriteTake_other hc⟩,
    exec_wordReadTake_idle, exec_wordWriteTake_idle, fun d => exec_expiry_idle⟩
  · obtain ⟨queues, values, pop⟩ := hostWrites_ignored (s := s) fun f => hostWrite_of_held hr hh f
    refine ⟨queues, values, pop, ?_, ?_⟩
    · simp only [exec, execApdloRead, hostReadAccess_of_held hr hh]
    · simp only [exec, execApdhiRead, hostReadAccess_of_held hr hh]
  · simp only [exec, execBurstReadTake, none]
  · simp only [exec, execBurstWriteTake, none]

end Sys2Proof.Laws

/-!
PROOFS. The external port's own happenings (chapter 08) and the resets (11 section 11.3, 08 section 8.8): what is offered,
accepted, late or stray; what each reset leaves; and that nothing is taken under an asserted reset pin.
-/

namespace Sys2Proof.Laws

open Sys2Proof.Machine Sys2Proof.Safety

variable {s t : State}

/-! ### OFFER and ACCEPTANCE -/

/-- An offer is made when none stands, an ID is FREE and a request waits. -/
theorem exec_offer {d : ReqId} {i : SlotId} {j : Job} {b : Burst} (hr : s.resetPin = false)
    (quiet : ∀ e, (s.reqId e).isOffered = false) (free : s.reqId d = .free) (lowest : ∀ e, e < d → s.reqId e ≠ .free)
    (choice : s.extChoice = some (i, j, b)) : exec .offer s = .next (s.offerRequest d i j b) := by
  have first : s.freeReqId = some d :=
    find_first ((isFree_iff _).2 free) fun e he => Bool.eq_false_iff.2 (mt (isFree_iff _).1 (lowest e he))
  simp only [exec, execOffer, hr, standingOffer_eq_none quiet, first, choice]
  rfl

/-- An offer stands on the ID that was given, and on no other. -/
theorem isOffered_giveId_ne (quiet : ∀ e, (s.reqId e).isOffered = false) (d : ReqId) (i : SlotId) (n : Nat)
    (role : RequestRole) (x : Nat) : ∀ e, e ≠ d → ((s.giveId d i n role x).reqId e).isOffered = false := by
  intro e he
  have : (s.giveId d i n role x).reqId e = s.reqId e := reqId_setReqId_ne s d e _ (Ne.symm he)
  rw [this]
  exact quiet e

theorem reqId_giveId_self (s : State) (d : ReqId) (i : SlotId) (n : Nat) (role : RequestRole) (x : Nat) :
    (s.giveId d i n role x).reqId d =
      .busy { slot := i, burst := n, role := role, address := x, accepted := false, timer := none } :=
  reqId_setReqId_self s d _

/-- A burst put back in its job is what a search for its index finds. -/
theorem find_putBurst {j : Job} {b c : Burst} (hb : b ∈ j.bursts) (hc : c.index = b.index) :
    (j.putBurst c).bursts.find? (fun x => x.index = b.index) = some c := by
  simp only [Job.putBurst]
  generalize j.bursts = l at hb ⊢
  induction l with
  | nil => cases hb
  | cons x l ih =>
    by_cases hx : x.index = b.index
    · simp [hx, hc]
    · rcases List.mem_cons.1 hb with rfl | hb
      · exact absurd rfl hx
      · simpa [hx, hc] using ih hb

/-- The words of the one write of a burst to an external place, once the write is sent. -/
theorem find_setWrite_sent {b : Burst} {w : WriteRequest} {x : Nat} (hw : w ∈ b.writes) (place : w.place = .ext x)
    (only : ∀ v ∈ b.writes, v.place = .ext x → v = w) :
    ((b.setWrite w .sent).writes.find? fun v => v.place = .ext x).map WriteRequest.words = some w.words := by
  obtain ⟨v, hv⟩ : ∃ v, (b.setWrite w .sent).writes.find? (fun v => v.place = .ext x) = some v := by
    rw [← Option.isSome_iff_exists, List.find?_isSome]
    exact ⟨{ w with stage := .sent }, List.mem_map.2 ⟨w, hw, by simp⟩, by simpa using place⟩
  obtain ⟨v', hv', rfl⟩ := List.mem_map.1 (List.mem_of_find?_eq_some hv)
  have hp := List.find?_some hv
  rw [hv, Option.map_some]
  by_cases e : v' = w
  · simp [e]
  · exact absurd (only v' hv' (by simpa [e] using hp)) e

/-- What the request channel shows of a burst's one write to an external place, once it is sent. -/
theorem offeredWords_sent {u : State} {i : SlotId} {j : Job} {b : Burst} {w : WriteRequest} {x : Nat}
    {accepted : Bool} {timer : Option (BitVec 8)} (slot : u.slot i = some (j.putBurst (b.setWrite w .sent)))
    (hb : b ∈ j.bursts) (hw : w ∈ b.writes) (place : w.place = .ext x)
    (only : ∀ v ∈ b.writes, v.place = .ext x → v = w) :
    u.offeredWords { slot := i, burst := b.index, role := .write, address := x, accepted := accepted, timer := timer } =
      some w.words := by
  simp only [State.offeredWords, State.owner, slot, find_putBurst hb (c := b.setWrite w .sent) rfl]
  exact find_setWrite_sent hw place only

/-- Settles O30. -/
theorem offerGivesLowestFreeId : Obligations.OfferGivesLowestFreeId := by
  refine ⟨fun s => ⟨requestChannel_idle s, rfl⟩, fun s hr => ⟨fun d i j b x quiet free lowest choice => ?_, ?_⟩⟩
  · have offer := exec_offer hr quiet free lowest choice
    obtain ⟨slot, burst, -⟩ := arbitrate_sound choice
    refine ⟨fun r hread place => ?reads, fun w noRead hwrite place => ?writes⟩
    case reads =>
      have sent : s.offerRequest d i j b =
          (s.setSlot i (some (j.putBurst (b.setRead r .sent)))).giveId d i b.index (.read r.role) x := by
        simp only [State.offerRequest, hread, place, Place.extAddress]
      refine ⟨_, offer, by rw [sent]; rfl, ?_⟩
      rw [sent, requestChannel_offer _ d _ (reqId_giveId_self _ d i _ _ x) rfl (isOffered_giveId_ne (s := s.setSlot i _) quiet d i _ _ x)]
      rfl
    case writes =>
      have sent : s.offerRequest d i j b =
          (s.setSlot i (some (j.putBurst (b.setWrite w .sent)))).giveId d i b.index .write x := by
        simp only [State.offerRequest, noRead, hwrite, place, Place.extAddress]
      refine ⟨_, offer, by rw [sent]; rfl, fun only => ?_⟩
      rw [sent, requestChannel_offer _ d _ (reqId_giveId_self _ d i _ _ x) rfl (isOffered_giveId_ne (s := s.setSlot i _) quiet d i _ _ x)]
      refine congrArg (fun words => some ({ id := d, isWrite := true, address := x, writeData := words } : OfferedRequest)) ?_
      exact offeredWords_sent (slot_setSlot_self s i _) burst (List.mem_of_find?_eq_some hwrite) place only
  · intro h
    simp only [exec, execOffer, hr, Bool.false_or]
    split
    · rfl
    · rename_i quiet
      split
      · rename_i d i j b free choice
        rcases h with ⟨e, he⟩ | full | none
        · have quiet := (standingOffer_none_iff s).1 (by simpa using quiet) e
          rw [he] at quiet
          cases quiet
        · exact absurd ((isFree_iff _).1 (List.find?_some (p := fun d => (s.reqId d).isFree) free)) (full d)
        · rw [none] at choice
          cases choice
      · rfl

/-- Settles O31. -/
theorem acceptanceStartsTimer : Obligations.AcceptanceStartsTimer := by
  refine fun s hr => ⟨fun d b busy waits one => ?_, fun quiet => ?_⟩
  · have offered : (s.reqId d).isOffered = true := by simp [busy, IdState.isOffered, waits]
    refine ⟨_, ?_, rfl, requestChannel_idle _ fun e => ?_⟩
    · simp only [exec, execAcceptance, hr, standingOffer_eq_some one offered, busy, startTimer]
      rfl
    · rw [reqId_setReqId]
      split
      · simp [IdState.isOffered]
      · rename_i ne
        rw [← Bool.not_eq_true]
        exact fun he => ne (one d e offered he)
  · simp only [exec, execAcceptance, hr, standingOffer_eq_none quiet]
    rfl

/-! ### RESPONSE and EXPIRY by the state of the ID -/

theorem exec_response_free {d : ReqId} (r : ResponseResult) (data : BurstData) (hr : s.resetPin = false)
    (free : s.reqId d = .free) : exec (.response d r data) s = .next s.strayResponse := by
  simp only [exec, execResponse, hr, free]
  rfl

theorem exec_response_quarantined {d : ReqId} (r : ResponseResult) (data : BurstData) (hr : s.resetPin = false)
    (late : s.reqId d = .quarantined) : exec (.response d r data) s = .next (s.setReqId d .free) := by
  simp only [exec, execResponse, hr, late]
  rfl

theorem exec_response_busy {d : ReqId} {b : BusyId} (r : ResponseResult) (data : BurstData) (hr : s.resetPin = false)
    (busy : s.reqId d = .busy b) (accepted : b.accepted = true) :
    exec (.response d r data) s = .next ((s.setReqId d .free).deliver b (responseOutcome r data)) := by
  simp only [exec, execResponse, hr, busy, accepted]
  rfl

theorem exec_expiry_busy {d : ReqId} {b : BusyId} (hr : s.resetPin = false) (busy : s.reqId d = .busy b)
    (accepted : b.accepted = true) (runs : b.timer.isSome = true) :
    exec (.expiry d) s = .next ((s.setReqId d .quarantined).deliver b (.failed .extTimeout)) := by
  simp only [exec, execExpiry, hr, busy, accepted, runs]
  rfl

/-- The outcome delivered leaves the state that the ID was given. -/
theorem reqId_deliver (s : State) (d e : ReqId) (x : IdState) (b : BusyId) (o : ExtOutcome) :
    ((s.setReqId d x).deliver b o).reqId e = if d = e then x else s.reqId e := by
  rw [State.reqId, (outside_deliver _ b o).ext]
  exact reqId_setReqId s d e x

/-- Settles O32. -/
theorem strayLateAndRacingResponses : Obligations.StrayLateAndRacingResponses := by
  refine fun s d r data hr => ⟨exec_response_free r data hr, exec_response_quarantined r data hr, fun b busy => ⟨?_, ?_⟩⟩
  · intro waits
    simp only [exec, execResponse, hr, busy, waits]
    rfl
  · intro accepted runs
    refine ⟨⟨_, exec_response_busy r data hr busy accepted, ?_, ?_⟩,
      ⟨_, exec_expiry_busy hr busy accepted runs, ?_, ?_⟩⟩
    · rw [reqId_deliver, if_pos rfl]
    · refine exec_expiry_idle fun c hc => ?_
      rw [reqId_deliver, if_pos rfl] at hc
      cases hc
    · rw [reqId_deliver, if_pos rfl]
    · refine exec_response_quarantined r data ?_ ?_
      · rw [(outside_deliver _ b _).resetPin]
        exact hr
      · rw [reqId_deliver, if_pos rfl]

/-! ### The resets -/

theorem getElem_mapVector {α β : Type} {n : Nat} (f : α → β) (v : Vector α n) (i : Fin n) :
    (mapVector f v)[i] = f v[i] := by
  simp [mapVector]

/-- Settles O45. -/
theorem softResetResult : Obligations.SoftResetResult := by
  intro s v free
  simp only [exec, execSoftReset, hostWrite_of_free free, State.writeSysctl]
  refine ⟨fun off => by rw [off]; rfl, fun on => ⟨mapVector IdState.softReset s.ext.ids, ?_, fun d => ?_⟩⟩
  · rw [if_pos on]
    simp only [State.softReset, State.resetCommon, free.1]
    rfl
  · rw [getElem_mapVector]
    refine ⟨fun h => ?_, fun h => ?_, fun b h => ?_⟩ <;>
    · have h' : s.ext.ids[d] = _ := h
      rw [h']
      rfl

/-- Settles O46. -/
theorem pinResetResult : Obligations.PinResetResult := by
  refine fun s => ⟨?_, rfl⟩
  have ended : (if s.host.held.isSome = true then (0 : Half) else s.host.readData) =
      if s.host.held = none then s.host.readData else 0 := by
    cases s.host.held <;> simp
  simp only [exec, execPinReset, State.pinReset]
  rw [ended]
  rfl

/-! The condition of the reset. -/

@[simp] theorem slot_reset (i : SlotId) : State.reset.slot i = none := by
  simp [State.slot, State.reset]

@[simp] theorem queue_reset (q : QueueId) : State.reset.queue q = Queue.reset := by
  simp [State.queue, State.reset]

@[simp] theorem tag_reset (t : TagId) : State.reset.tag t = { count := 0, poison := false } := by
  simp [State.tag, State.reset]

@[simp] theorem reqId_reset (d : ReqId) : State.reset.reqId d = .free := by
  simp [State.reqId, State.reset]

theorem jobsWith_eq_zero (empty : ∀ i, s.slot i = none) (p : Job → Bool) : jobsWith s p = 0 := by
  simp [jobsWith, empty]

/-- With every slot FREE no port finds a burst that waits. -/
theorem arbitrate_eq_none (empty : ∀ i, s.slot i = none) (wants : Burst → Bool) (p : SlotId) :
    s.arbitrate wants p = none := by
  have : (slotsAfter p).find? (s.contendsAtTop wants) = none := by
    simp [State.contendsAtTop, State.contends, empty]
  rw [State.arbitrate, this]

theorem bankChoice_eq_none (empty : ∀ i, s.slot i = none) (p : BankId) : s.bankChoice p = none := by
  rw [State.bankChoice, arbitrate_eq_none empty, ite_self]

theorem queueSound_reset : QueueSound Queue.reset := by
  simp [QueueSound, Queue.reset]

theorem not_burstIn_reset (i : SlotId) (j : Job) (b : Burst) : ¬burstIn State.reset i j b := by
  simp [burstIn]

/-- Settles O60: no slot holds a job, no queue a command, no ID a request, and the FIFO no record. -/
theorem resetMeetsInvariants : Obligations.ResetMeetsInvariants := by
  have noJob : ∀ {P : SlotId → Job → Prop} (i : SlotId) (j : Job), State.reset.slot i = some j → P i j :=
    fun i j h => by simp at h
  have noBurst : ∀ {P : SlotId → Job → Burst → Prop} (i : SlotId) (j : Job) (b : Burst), burstIn State.reset i j b →
      P i j b := fun i j b h => absurd h (not_burstIn_reset i j b)
  refine ⟨?jobs, ?tags, ?aborting, noJob, ?ordered, ?sound, ?stalled, noJob, ⟨?fifo, ?view⟩, noJob, noJob, ?interlock,
    ⟨noBurst, ?waiters⟩, ⟨List.nodup_nil, ?entries, noBurst⟩,
    fun i j b k l c h => absurd h (not_burstIn_reset i j b), ⟨?busy, ?carried, noBurst⟩, ?offers, ?timers,
    ?posting, ⟨List.Pairwise.nil, fun _ h => nomatch h⟩, ⟨Nat.le_refl 1, by decide⟩, fun h => nomatch h⟩
  case jobs => exact fun q => by rw [jobsWith_eq_zero slot_reset, queue_reset]; rfl
  case tags => exact fun g => by rw [jobsWith_eq_zero slot_reset, tag_reset]
  case aborting => exact fun q h => by rw [queue_reset] at h; cases h
  case ordered => exact fun q => by rw [queue_reset]; exact ⟨by decide, fun n h => nomatch h⟩
  case sound => exact fun q => by rw [queue_reset]; exact queueSound_reset
  case stalled => exact fun q h => by rw [queue_reset] at h; cases h
  case fifo => exact fun r h => nomatch h
  case view => exact fun r h => nomatch h
  case interlock => exact ⟨⟨by decide, List.Pairwise.nil⟩, fun w h => nomatch h⟩
  case waiters => exact fun w h => nomatch h
  case entries => exact fun e h => nomatch h
  case busy => exact fun d b h => by rw [reqId_reset] at h; cases h
  case carried => exact fun d e b c h => by rw [reqId_reset] at h; cases h
  case offers => exact fun d e h => by rw [reqId_reset] at h; cases h
  case timers => exact fun d b h => by rw [reqId_reset] at h; cases h
  case posting => exact ⟨by decide, fun h => absurd rfl h, List.nodup_nil, fun p h => nomatch h⟩

/-! ### Under an asserted reset pin -/

/-- The condition a reset left has no job, no running queue and no held access, so no block has a happening to take. -/
theorem idle_of_resetHeld (held : ResetHeld s) (hr : s.resetPin = true) :
    (∀ i, s.slot i = none) ∧ (∀ q, (s.queue q).state = .stopped) ∧ s.host.held = none := by
  rw [held hr]
  exact ⟨slot_reset, fun q => congrArg Queue.state (queue_reset q), rfl⟩

theorem resetHeld_readData (held : ResetHeld s) (hr : s.resetPin = true) (x : Half) :
    ResetHeld { s with host := { s.host with readData := x } } := by
  intro _
  rw [held hr]

theorem resetHeld_pinReset (s : State) : ResetHeld s.pinReset := fun _ => rfl

theorem exec_offer_reset (hr : s.resetPin = true) : exec .offer s = .next s := by
  simp [exec, execOffer, hr]

theorem exec_acceptance_reset (hr : s.resetPin = true) : exec .acceptance s = .next s := by
  simp [exec, execAcceptance, hr]

theorem exec_response_reset (hr : s.resetPin = true) (d : ReqId) (r : ResponseResult) (data : BurstData) :
    exec (.response d r data) s = .next s := by
  simp [exec, execResponse, hr]

theorem exec_expiry_reset (hr : s.resetPin = true) (d : ReqId) : exec (.expiry d) s = .next s := by
  simp [exec, execExpiry, hr]

theorem hostReadAccess_of_reset (hr : s.resetPin = true) (f : State → State) :
    s.hostReadAccess f = { s with host := { s.host with readData := 0 } } := by
  simp [State.hostReadAccess, hr]

/-- In the condition the reset left, every command leaves that condition, or ends the reset. -/
theorem resetHeld_exec {c : Instr} (held : ResetHeld s) (hr : s.resetPin = true) (h : exec c s = .next t) :
    ResetHeld t := by
  obtain ⟨free, stopped, noAccess⟩ := idle_of_resetHeld held hr
  have same : exec c s = .next s → ResetHeld t := fun e => by
    rw [e] at h
    cases h
    exact held
  have ignored : ∀ f, s.hostWrite f = s := hostWrite_of_reset hr
  have written : ∀ f, (Host.Outcome.next (s.hostWrite f) : Host.Outcome State Fault Refusal) = .next s := fun f => by
    rw [ignored]
  cases c with
  | take q => exact same (exec_take_idle (.inl (by simp [stopped q])))
  | burstIssue i => exact same (exec_burstIssue_idle fun j hj => by simp [free i] at hj)
  | burstReadTake p => exact same (by simp only [exec, execBurstReadTake, bankChoice_eq_none free])
  | burstWriteTake p => exact same (by simp only [exec, execBurstWriteTake, bankChoice_eq_none free])
  | wordReadTake => exact same (exec_wordReadTake_idle (by simp [noAccess]))
  | wordWriteTake => exact same (exec_wordWriteTake_idle (by simp [noAccess]))
  | offer => exact same (exec_offer_reset hr)
  | acceptance => exact same (exec_acceptance_reset hr)
  | response d r data => exact same (exec_response_reset hr d r data)
  | expiry d => exact same (exec_expiry_reset hr d)
  | apdloRead =>
    cases h
    rw [hostReadAccess_of_reset hr]
    exact resetHeld_readData held hr 0
  | apdhiRead =>
    cases h
    rw [hostReadAccess_of_reset hr]
    exact resetHeld_readData held hr 0
  | pinReset =>
    cases h
    exact resetHeld_pinReset s
  | pinResetEnd =>
    cases h
    exact fun on => nomatch on
  | _ => exact same (written _)

theorem resetHeld_step (held : ResetHeld s) (hr : s.resetPin = true) (h : step s = .next t) : ResetHeld t := by
  unfold step at h
  split at h
  · cases h
    exact held
  · rename_i rest _
    refine resetHeld_exec (s := s.withPending rest) (fun _ => ?_) hr h
    rw [held hr]
    rfl

/-- Settles O41. -/
theorem nothingTakenUnderReset : Obligations.NothingTakenUnderReset := by
  intro s hr
  obtain ⟨queues, values, pop⟩ := hostWrites_ignored (s := s) (hostWrite_of_reset hr)
  refine ⟨queues, values, pop, exec_offer_reset hr, exec_acceptance_reset hr,
    fun d r data => ⟨exec_response_reset hr d r data, exec_expiry_reset hr d⟩, ?_, ?_, fun addr => ?_,
    fun held t => resetHeld_step held hr⟩
  · simp only [exec, execApdloRead, hostReadAccess_of_reset hr]
  · simp only [exec, execApdhiRead, hostReadAccess_of_reset hr]
  · rw [State.readRegister, if_pos hr]

end Sys2Proof.Laws

/-!
PROOFS. The register window of chapter 11: which register an address reaches (R177, R179), what a write there does, and
what every register shows to a read (R181 to R188).
-/

namespace Sys2Proof.Laws

open Sys2Proof.Machine Sys2Proof.Safety

variable {s t : State}

/-! ### The map -/

/-- The register at a word-aligned address. -/
theorem registerAt_ofNat {a : Nat} (ha : a < 0x1000) (aligned : a % 4 = 0) :
    registerAt (BitVec.ofNat 12 a) =
      if a < 0x100 then globalRegisterAt a
      else if a < 0x180 then some (.tag (Fin.ofNat 32 ((a - 0x100) / 4)))
      else if a < 0x200 then none
      else if a < 0x400 then queueRegisterAt (Fin.ofNat 4 ((a - 0x200) / 0x80)) ((a - 0x200) % 0x80)
      else if a < 0x800 then none
      else some (.seg (Fin.ofNat 512 ((a - 0x800) / 4))) := by
  have word : (BitVec.ofNat 12 a).toNat / 4 * 4 = a := by
    rw [BitVec.toNat_ofNat, Nat.mod_eq_of_lt (by omega)]
    omega
  rw [registerAt, word]

theorem registerAt_tag (t : TagId) : registerAt (BitVec.ofNat 12 (0x100 + 4 * t.val)) = some (.tag t) := by
  have := t.isLt
  rw [registerAt_ofNat (by omega) (by omega), if_neg (by omega), if_pos (by omega)]
  have number : Fin.ofNat 32 ((0x100 + 4 * t.val - 0x100) / 4) = t := Fin.ext (by simp [Fin.ofNat])
  rw [number]

theorem registerAt_seg (m : SegIndex) : registerAt (BitVec.ofNat 12 (0x800 + 4 * m.val)) = some (.seg m) := by
  have := m.isLt
  generalize ha : 0x800 + 4 * m.val = a
  rw [registerAt_ofNat (by omega) (by omega), if_neg (by omega), if_neg (by omega), if_neg (by omega),
    if_neg (by omega), if_neg (by omega)]
  have number : Fin.ofNat 512 ((a - 0x800) / 4) = m := Fin.ext (by simp only [Fin.ofNat]; omega)
  rw [number]

/-- The registers of a queue block, by their offset. -/
theorem registerAt_queue (q : QueueId) {n : Nat} (hn : n < 0x80) (aligned : n % 4 = 0) :
    registerAt (BitVec.ofNat 12 (0x200 + n + 0x80 * q.val)) = queueRegisterAt q n := by
  have := q.isLt
  generalize ha : 0x200 + n + 0x80 * q.val = a
  rw [registerAt_ofNat (by omega) (by omega), if_neg (by omega), if_neg (by omega), if_neg (by omega),
    if_pos (by omega)]
  have queue : Fin.ofNat 4 ((a - 0x200) / 0x80) = q := Fin.ext (by simp only [Fin.ofNat]; omega)
  rw [queue, show (a - 0x200) % 0x80 = n by omega]

theorem registerAt_stage (q : QueueId) (k : Fin 4) :
    registerAt (BitVec.ofNat 12 (0x200 + 0x80 * q.val + 4 * k.val)) = some (.stage q k) := by
  have hk := k.isLt
  have := registerAt_queue q (n := 4 * k.val) (by omega) (by omega)
  rw [show 0x200 + 0x80 * q.val + 4 * k.val = 0x200 + 4 * k.val + 0x80 * q.val by omega, this, queueRegisterAt,
    if_pos (by omega)]
  exact congrArg (some ∘ Register.stage q) (Fin.ext (by simp [Fin.ofNat]))

theorem registerAt_cfview (k : Fin 4) : registerAt (BitVec.ofNat 12 (0x024 + 4 * k.val)) = some (.cfview k) := by
  revert k
  decide

/-- An access reaches the register that contains its address. -/
theorem registerAt_aligned (addr : BitVec 12) : registerAt (addr &&& 0xFFC#12) = registerAt addr := by
  have shifted : (addr &&& 0xFFC#12) >>> 2 = addr >>> 2 := by
    ext i hi
    interval_cases i <;> simp
  have word : (addr &&& 0xFFC#12).toNat / 4 = addr.toNat / 4 := by
    have := congrArg BitVec.toNat shifted
    simpa [BitVec.toNat_ushiftRight, Nat.shiftRight_eq_div_pow] using this
  simp only [registerAt, word]

theorem ite_some_eq_none {α : Type} {p : Prop} [Decidable p] {x : α} {o : Option α} :
    (if p then some x else o) = none ↔ ¬p ∧ o = none := by
  split <;> simp [*]

theorem globalRegisterAt_eq_none_iff (a : Nat) : globalRegisterAt a = none ↔ a ∉ globalAddresses := by
  simp [globalRegisterAt, globalAddresses, ite_some_eq_none]

theorem queueRegisterAt_eq_none_iff (q : QueueId) {n : Nat} (aligned : n % 4 = 0) :
    queueRegisterAt q n = none ↔ n ∉ queueOffsets := by
  simp only [queueRegisterAt, queueOffsets, ite_some_eq_none, List.mem_cons, List.not_mem_nil, or_false, not_or, and_true]
  omega

/-- The map is what `registerAt` reads: an address reaches a register exactly where the map names one. -/
theorem registerAt_eq_none_iff (addr : BitVec 12) : registerAt addr = none ↔ ¬InMap addr := by
  have bound := addr.isLt
  have aligned : addr.toNat / 4 * 4 % 4 = 0 := by omega
  have global : ∀ a ∈ globalAddresses, a < 0x100 := by decide
  unfold registerAt InMap NamesRegister
  generalize addr.toNat / 4 * 4 = a at aligned ⊢
  dsimp only
  split_ifs with low tag gap queue unused
  · rw [globalRegisterAt_eq_none_iff]
    refine not_congr ⟨.inl, ?_⟩
    rintro (h | h | h | h)
    · exact h
    all_goals omega
  all_goals have away : a ∉ globalAddresses := fun h => absurd (global a h) low
  · exact iff_of_false nofun (not_not.2 (.inr (.inl ⟨by omega, tag⟩)))
  · refine iff_of_true rfl ?_
    rintro (h | h | h | h)
    · exact away h
    all_goals omega
  · rw [queueRegisterAt_eq_none_iff _ (by omega)]
    refine not_congr ⟨fun h => .inr (.inr (.inl ⟨by omega, queue, h⟩)), ?_⟩
    rintro (h | h | h | h)
    · exact absurd h away
    · omega
    · exact h.2.2
    · omega
  · refine iff_of_true rfl ?_
    rintro (h | h | h | h)
    · exact away h
    all_goals omega
  · exact iff_of_false nofun (not_not.2 (.inr (.inr (.inr (by omega)))))

/-! ### Writes -/

theorem exec_registerWrite {addr : BitVec 12} {r : Register} (h : registerAt addr = some r) (v : Half) (s : State) :
    exec (.registerWrite addr v) s = .next (s.hostWrite fun u => u.writeRegister r v) := by
  simp only [exec, execRegisterWrite, State.writeAddress, h]

/-- A write without an effect. -/
theorem hostWrite_id (s : State) : (s.hostWrite fun u => u) = s := by
  unfold State.hostWrite
  simp

theorem exec_registerWrite_outside {addr : BitVec 12} (h : registerAt addr = none) (v : Half) (s : State) :
    exec (.registerWrite addr v) s = .next s := by
  simp only [exec, execRegisterWrite, State.writeAddress, h, hostWrite_id]

/-- A read-only register ignores a write. -/
theorem exec_registerWrite_readOnly {addr : BitVec 12} {r : Register} (h : registerAt addr = some r)
    (ro : ∀ (v : Half) (u : State), u.writeRegister r v = u) (v : Half) (s : State) :
    exec (.registerWrite addr v) s = .next s := by
  simp only [exec_registerWrite h, ro, hostWrite_id]

/-- A write to QnCTL is the control command that its code names. -/
theorem exec_registerWrite_ctl (q : QueueId) (v : Half) (s : State) {f : State → State}
    (h : ∀ u : State, u.writeControl q v = f u) :
    exec (.registerWrite (BitVec.ofNat 12 (0x214 + 0x80 * q.val)) v) s = .next (s.hostWrite f) := by
  rw [exec_registerWrite (r := .ctl q) (registerAt_queue q (n := 0x14) (by omega) (by omega))]
  simp only [State.writeRegister, h]

theorem apaddrFields (v : Half) :
    (Fin.ofNat 8192 (v.extractLsb' 0 13).toNat : BankWord) = Fin.ofNat 8192 v.toNat ∧
      (Fin.ofNat 8 (v.extractLsb' 16 3).toNat : BankId) = Fin.ofNat 8 (v.toNat / 65536) := by
  constructor <;> exact Fin.ext (by simp [Fin.ofNat, BitVec.extractLsb'_toNat, Nat.shiftRight_eq_div_pow])

/-- Settles O40, register by register through the map. -/
theorem registerWriteReaches : Obligations.RegisterWriteReaches := by
  intro s v
  refine ⟨fun addr => ?_, fun addr h => exec_registerWrite_outside h v s, registerAt_eq_none_iff,
    fun free => ⟨fun q k => ?_, ?_, ?_⟩, ⟨?_, fun k => ?_, fun q => ⟨?_, ?_, ?_⟩⟩,
    fun q => ⟨?_, fun h => ?_, fun h => ?_, fun h => ?_, fun h => ?_, fun h => ?_, fun h => ?_⟩,
    fun t => ?_, fun m => ?_, ?_, ?_, ?_, ?_, ?_, ?_, ?_, ?_⟩
  · simp only [exec, execRegisterWrite, State.writeAddress, registerAt_aligned]
  · rw [exec_registerWrite (registerAt_stage q k), hostWrite_of_free free]
    rfl
  · rw [exec_registerWrite (r := .apaddr) (by decide), hostWrite_of_free free]
    simp only [State.writeRegister, State.writeApaddr, apaddrFields]
  · rw [exec_registerWrite (r := .apdlo) (by decide), hostWrite_of_free free]
    rfl
  · exact exec_registerWrite_readOnly (r := .xstat) (by decide) (fun _ _ => rfl) v s
  · exact exec_registerWrite_readOnly (registerAt_cfview k) (fun _ _ => rfl) v s
  · exact exec_registerWrite_readOnly (r := .state q) (registerAt_queue q (n := 0x18) (by omega) (by omega))
      (fun _ _ => rfl) v s
  · exact exec_registerWrite_readOnly (r := .seq q) (registerAt_queue q (n := 0x1C) (by omega) (by omega))
      (fun _ _ => rfl) v s
  · exact exec_registerWrite_readOnly (r := .halt q) (registerAt_queue q (n := 0x20) (by omega) (by omega))
      (fun _ _ => rfl) v s
  · exact exec_registerWrite (r := .commit q) (registerAt_queue q (n := 0x10) (by omega) (by omega)) v s
  · exact exec_registerWrite_ctl q v s fun u => by rw [State.writeControl, controlCode_toNat, h]; rfl
  · exact exec_registerWrite_ctl q v s fun u => by rw [State.writeControl, controlCode_toNat, h]; rfl
  · exact exec_registerWrite_ctl q v s fun u => by rw [State.writeControl, controlCode_toNat, h]; rfl
  · exact exec_registerWrite_ctl q v s fun u => by rw [State.writeControl, controlCode_toNat, h]; rfl
  · exact exec_registerWrite_ctl q v s fun u => by rw [State.writeControl, controlCode_toNat, h]; rfl
  · exact exec_registerWrite_ctl q v s fun u => rfl
  · exact exec_registerWrite (registerAt_tag t) v s
  · exact exec_registerWrite (registerAt_seg m) v s
  · exact exec_registerWrite (r := .sysctl) (by decide) v s
  · exact exec_registerWrite (r := .xcfg) (by decide) v s
  · exact exec_registerWrite (r := .icause) (by decide) v s
  · exact exec_registerWrite (r := .imask) (by decide) v s
  · exact exec_registerWrite (r := .icplth) (by decide) v s
  · exact exec_registerWrite (r := .cfpop) (by decide) v s
  · exact exec_registerWrite (r := .apdhi) (by decide) v s
  · exact exec_registerWrite (r := .apstat) (by decide) v s

/-! ### Fields laid side by side -/

theorem showField_zero {w n : Nat} (hn : n < 2 ^ w) : showField 0 w n = BitVec.ofNat 32 n := by
  rw [showField, Nat.mod_eq_of_lt hn, pow_zero, Nat.mul_one]

/-- A field above the bits in use adds its value at its place. -/
theorem or_showField {m lo w n : Nat} (hm : m < 2 ^ lo) (hn : n < 2 ^ w) :
    BitVec.ofNat 32 m ||| showField lo w n = BitVec.ofNat 32 (m + 2 ^ lo * n) := by
  rw [showField, Nat.mod_eq_of_lt hn, Nat.mul_comm n, Nat.add_comm m, Nat.two_pow_add_eq_or_of_lt hm, Nat.or_comm]
  apply BitVec.eq_of_getLsbD_eq
  intro i hi
  simp [hi]

/-- The value of a field shown alone. -/
theorem toNat_showField {lo w n : Nat} (fits : lo + w ≤ 32) (hn : n < 2 ^ w) :
    (showField lo w n).toNat = n * 2 ^ lo := by
  have : n * 2 ^ lo < 2 ^ 32 := calc
    n * 2 ^ lo < 2 ^ w * 2 ^ lo := Nat.mul_lt_mul_of_pos_right hn (by positivity)
    _ = 2 ^ (lo + w) := by rw [pow_add, Nat.mul_comm]
    _ ≤ 2 ^ 32 := Nat.pow_le_pow_right (by decide) fits
  rw [showField, BitVec.toNat_ofNat, Nat.mod_eq_of_lt hn, Nat.mod_eq_of_lt this]

theorem bool_toNat_lt (b : Bool) : b.toNat < 2 ^ 1 := by
  cases b <;> decide

/-! ### QnSTATE and SEGm -/

theorem queueStateCode_lt (x : QueueState) : x.code < 2 ^ 3 := by
  cases x <;> decide

theorem subReason_testBit (x : QueueState) : x.subReason.testBit 0 = true ↔ x = .stalledRoom := by
  cases x <;> simp [QueueState.subReason]

theorem pushResultCode_lt (x : PushResult) : x.code < 2 ^ 2 := by
  cases x <;> decide

theorem controlResultCode_lt (x : ControlResult) : x.code < 2 ^ 2 := by
  cases x <;> decide

/-- The fields of QnSTATE are read back at their places, and the other bits are 0 (R183). -/
theorem showState_fields (x : Queue) :
    x.showState.extractLsb' 0 3 = BitVec.ofNat 3 x.state.code ∧
    x.showState.extractLsb' 3 1 = BitVec.ofNat 1 x.state.subReason ∧
    x.showState.extractLsb' 4 6 = BitVec.ofNat 6 x.commands.length ∧
    x.showState.extractLsb' 10 4 = BitVec.ofNat 4 x.jobs ∧
    x.showState.extractLsb' 16 2 = BitVec.ofNat 2 x.pushResult.code ∧
    x.showState.extractLsb' 18 2 = BitVec.ofNat 2 x.controlResult.code ∧
    x.showState.extractLsb' 14 2 = 0 ∧ x.showState.extractLsb' 20 12 = 0 := by
  have other {n lo w a b : Nat} (h : a + b ≤ lo ∨ lo + w ≤ a) : (showField lo w n).extractLsb' a b = 0#b :=
    extract_showField_other h
  simp only [Queue.showState, BitVec.extractLsb'_or]
  refine ⟨?_, ?_, ?_, ?_, ?_, ?_, ?_, ?_⟩
  all_goals simp [extract_showField_self, other]

/-- The fields of an entry in the bits of the value it shows (R186). -/
theorem getLsbD_toHalf (e : SegEntry) {i : Nat} (hi : i < 32) :
    e.toHalf.getLsbD i =
      if i < 20 then e.base.getLsbD i
      else if i < 26 then e.lengthMinusOne.getLsbD (i - 20)
      else if i < 30 then false
      else if i < 31 then e.stop
      else e.valid := by
  simp only [SegEntry.toHalf, BitVec.getLsbD_append, BitVec.getLsbD_ofBool, BitVec.getLsbD_zero]
  by_cases h20 : i < 20
  · simp [h20]
  by_cases h26 : i < 26
  · simp [h20, h26, show i - 20 < 6 by omega]
  by_cases h30 : i < 30
  · simp [h20, h26, h30, show ¬i - 20 < 6 by omega, show i - 20 - 6 < 4 by omega]
  by_cases h31 : i < 31
  · simp [show i = 30 by omega]
  · simp [show i = 31 by omega]

theorem ofHalf_toHalf (e : SegEntry) : SegEntry.ofHalf e.toHalf = e := by
  obtain ⟨valid, stop, len, base⟩ := e
  have bit {i : Nat} (hi : i < 32) := getLsbD_toHalf ⟨valid, stop, len, base⟩ hi
  simp only [SegEntry.ofHalf, SegEntry.mk.injEq]
  refine ⟨by rw [bit (by omega)]; rfl, by rw [bit (by omega)]; rfl, ?_, ?_⟩
  · apply BitVec.eq_of_getLsbD_eq
    intro i hi
    rw [BitVec.getLsbD_extractLsb', bit (by omega), if_neg (by omega), if_pos (by omega)]
    simp [hi]
  · apply BitVec.eq_of_getLsbD_eq
    intro i hi
    rw [BitVec.getLsbD_extractLsb', bit (by omega), if_pos (by omega)]
    simp [hi]

/-- Only bits 29:26 of a value written to SEGm are lost. -/
theorem toHalf_ofHalf (v : Half) : (SegEntry.ofHalf v).toHalf = v &&& 0xC3FFFFFF#32 := by
  apply BitVec.eq_of_getLsbD_eq
  intro i hi
  have mask : (0xC3FFFFFF#32).getLsbD i = decide (i < 26 ∨ 30 ≤ i) := by
    revert hi
    revert i
    decide
  rw [BitVec.getLsbD_and, mask, getLsbD_toHalf _ hi]
  simp only [SegEntry.ofHalf, BitVec.getLsbD_extractLsb']
  split_ifs with h20 h26 h30 h31
  · simp [h20, show i < 26 by omega]
  · simp [h26, show i - 20 < 6 by omega, show 20 + (i - 20) = i by omega]
  · simp [show ¬(i < 26 ∨ 30 ≤ i) by omega]
  · simp [show i = 30 by omega]
  · simp [show i = 31 by omega]

/-! ### Reads -/

theorem readRegister_of_register (hr : s.resetPin = false) {addr : BitVec 12} {r : Register}
    (h : registerAt addr = some r) : s.readRegister addr = s.showRegister r := by
  simp [State.readRegister, hr, h]

theorem readRegister_outside (hr : s.resetPin = false) {addr : BitVec 12} (h : registerAt addr = none) :
    s.readRegister addr = some 0 := by
  simp [State.readRegister, hr, h]

theorem xsizeCode_lt (x : XSize) : x.code < 2 ^ 3 := by
  cases x <;> decide

theorem haltCode_lt (x : HaltCode) : x.code < 2 ^ 4 := by
  rcases x with f | _ | _ | _ | _
  · cases f <;> decide
  all_goals decide

theorem haltOriginCode_lt (x : HaltOrigin) : x.code < 2 ^ 2 := by
  cases x <;> decide

theorem countP_finRange_le (p : ReqId → Bool) : (List.finRange 16).countP p ≤ 16 := by
  have := List.countP_le_length (p := p) (l := List.finRange 16)
  simpa using this

/-- XSTAT is the sum of its three fields (R181). -/
theorem showXstat_eq (s : State) :
    s.showXstat = BitVec.ofNat 32
      (((List.finRange 16).countP fun d => (s.reqId d).isBusy) +
        0x100 * ((List.finRange 16).countP fun d => s.reqId d = .quarantined) +
        0x10000 * (if ∃ d, (s.reqId d).isOffered = true then 1 else 0)) := by
  have quarantined : s.quarantinedCount = (List.finRange 16).countP fun d => s.reqId d = .quarantined := by
    refine List.countP_congr fun d _ => ?_
    cases s.reqId d <;> simp [IdState.isQuarantined]
  have offer : s.standingOffer.isSome.toNat = if ∃ d, (s.reqId d).isOffered = true then 1 else 0 := by
    have : s.standingOffer.isSome = true ↔ ∃ d, (s.reqId d).isOffered = true := by
      simp [State.standingOffer, List.find?_isSome]
    split_ifs with h
    · rw [this.2 h]; rfl
    · rw [Bool.eq_false_iff.2 (mt this.1 h)]; rfl
  have busy := countP_finRange_le fun d => (s.reqId d).isBusy
  have late := countP_finRange_le fun d => s.reqId d = .quarantined
  rw [State.showXstat, quarantined, offer, State.busyCount, showField_zero (by omega), or_showField (by omega) (by omega),
    or_showField (by omega) (by split_ifs <;> decide)]
  rfl

/-- ICAUSE is the sum of the four causes (R181). -/
theorem causes_eq (s : State) :
    s.causes.setWidth 32 = BitVec.ofNat 32
      (s.interrupts.halt.toNat + 2 * s.interrupts.note.toNat + 4 * s.interrupts.stray.toNat +
        8 * (if s.interrupts.threshold ≤ s.completion.fifo.length then 1 else 0)) := by
  have level : (if s.interrupts.threshold ≤ s.completion.fifo.length then 1 else 0) = s.cplLevel.toNat := by
    unfold State.cplLevel
    split_ifs with h <;> simp [h]
  rw [level, State.causes]
  cases s.interrupts.halt <;> cases s.interrupts.note <;> cases s.interrupts.stray <;> cases s.cplLevel <;> rfl

/-- QnHALT is the sum of its three fields (R183). -/
theorem showHalt_eq {x : Queue} {h : HaltReason} (hx : x.halt = some h) :
    x.showHalt = BitVec.ofNat 32 (h.code.code + 0x10 * h.origin.code + 0x10000 * h.seq.toNat) := by
  have code := haltCode_lt h.code
  have origin := haltOriginCode_lt h.origin
  simp only [Queue.showHalt, hx]
  rw [showField_zero code, or_showField code origin, or_showField (by omega) h.seq.isLt]
  rfl

/-- Settles O43: each register is found through the map, and shows its fields side by side. -/
theorem readBackFields : Obligations.ReadBackFields := by
  refine ⟨fun x depth slots => ?state, toHalf_ofHalf, ofHalf_toHalf, by decide, fun s hr => ?reads⟩
  case state =>
    obtain ⟨state, sub, length, jobs, push, control, gap, top⟩ := showState_fields x
    have reason : x.showState.getLsbD 3 = x.state.subReason.testBit 0 := by
      have := congrArg (fun f => f.getLsbD 0) sub
      simp only [BitVec.getLsbD_extractLsb', BitVec.getLsbD_ofNat] at this
      simpa using this
    rw [state, reason, length, jobs, push, control]
    refine ⟨?_, subReason_testBit x.state, ?_, ?_, ?_, ?_, gap, top, ?_, ?_⟩
    · exact Nat.mod_eq_of_lt (queueStateCode_lt x.state)
    · exact Nat.mod_eq_of_lt (by omega)
    · exact Nat.mod_eq_of_lt (by omega)
    · exact Nat.mod_eq_of_lt (pushResultCode_lt x.pushResult)
    · exact Nat.mod_eq_of_lt (controlResultCode_lt x.controlResult)
    · apply BitVec.eq_of_getLsbD_eq
      intro i hi
      rw [Queue.showSeq, BitVec.getLsbD_extractLsb', BitVec.getLsbD_append]
      simp [hi]
    · apply BitVec.eq_of_getLsbD_eq
      intro i hi
      rw [Queue.showSeq, BitVec.getLsbD_extractLsb', BitVec.getLsbD_append]
      simp [hi]
  case reads =>
    have reads {addr : BitVec 12} {r : Register} (h : registerAt addr = some r) := readRegister_of_register hr h
    refine ⟨fun addr => ?_, fun addr h => ?_, reads (r := .sysctl) (by decide), ?_, ?_, ?_, ?_, fun ht => ?_,
      fun hf hw => ?_, fun k => reads (registerAt_cfview k), ?_, ?_, fun t ht => ?_, fun q k => reads (registerAt_stage q k),
      fun q => ⟨reads (r := .commit q) (registerAt_queue q (n := 0x10) (by omega) (by omega)),
        reads (r := .ctl q) (registerAt_queue q (n := 0x14) (by omega) (by omega)),
        reads (r := .state q) (registerAt_queue q (n := 0x18) (by omega) (by omega)),
        reads (r := .seq q) (registerAt_queue q (n := 0x1C) (by omega) (by omega)), fun h => ?_, fun h hh => ?_⟩,
      fun m => reads (registerAt_seg m)⟩
    · simp only [State.readRegister, registerAt_aligned]
    · exact readRegister_outside hr (h.elim id (registerAt_eq_none_iff addr).2)
    · rw [reads (r := .xcfg) (by decide), State.showRegister, showField_zero (xsizeCode_lt _)]
      rw [or_showField (Nat.lt_trans (xsizeCode_lt _) (by decide)) s.ext.xtimeout.isLt]
      rfl
    · rw [reads (r := .xstat) (by decide), State.showRegister, showXstat_eq]
    · rw [reads (r := .icause) (by decide), State.showRegister, causes_eq]
    · rw [reads (r := .imask) (by decide), State.showRegister]
      exact congrArg some (BitVec.eq_of_toNat_eq (by simp))
    · rw [reads (r := .icplth) (by decide), State.showRegister, showField_zero (by omega)]
    · rw [reads (r := .cfpop) (by decide), State.showRegister, showField_zero (by omega),
        or_showField (by omega) (by omega)]
      rfl
    · rw [reads (r := .apaddr) (by decide), State.showRegister, showField_zero (by omega),
        or_showField (by omega) (by omega)]
      rfl
    · rw [reads (r := .apstat) (by decide), State.showRegister, showField_zero (bool_toNat_lt _)]
    · rw [reads (registerAt_tag t), State.showRegister, showField_zero (by omega),
        or_showField (by omega) (bool_toNat_lt _)]
      rfl
    · rw [reads (r := .halt q) (registerAt_queue q (n := 0x20) (by omega) (by omega)), State.showRegister, Queue.showHalt, h]
    · rw [reads (r := .halt q) (registerAt_queue q (n := 0x20) (by omega) (by omega)), State.showRegister, showHalt_eq hh]

/-! ### The view -/

theorem showView_of_some {r : Record} (h : s.completion.view = some r) :
    s.showView 0 = r.view0 ∧ s.showView 1 = r.view1 ∧ s.showView 2 = (r.place.map FaultPlace.view2).getD 0 ∧
      s.showView 3 = (r.place.map FaultPlace.view3).getD 0 := by
  simp [State.showView, h]

/-- The fields of a job's record in CFVIEW0 and CFVIEW1 are read back at their places (R187). -/
theorem view_job_fields (kind : JobKind) (status : Status) (q : QueueId) (seq : BitVec 16) (tag : Option TagId)
    (done sat : Nat) (place : Option FaultPlace) {r : Record} (hr : r = .job kind status q seq tag done sat place) :
    r.view0.extractLsb' 0 16 = BitVec.ofNat 16 seq.toNat ∧ r.view0.extractLsb' 16 2 = BitVec.ofNat 2 kind.code ∧
    r.view0.extractLsb' 18 4 = BitVec.ofNat 4 status.code ∧ r.view0.extractLsb' 22 2 = BitVec.ofNat 2 q.val ∧
    r.view0.extractLsb' 24 1 = BitVec.ofNat 1 tag.isSome.toNat ∧
    r.view0.extractLsb' 25 5 = BitVec.ofNat 5 ((tag.map Fin.val).getD 0) ∧
    r.view0.extractLsb' 30 1 = BitVec.ofNat 1 place.isSome.toNat ∧ r.view0.extractLsb' 31 1 = 0 ∧
    r.view1.extractLsb' 0 14 = BitVec.ofNat 14 done ∧ r.view1.extractLsb' 14 2 = 0 ∧
    r.view1.extractLsb' 16 16 = BitVec.ofNat 16 sat := by
  have other {n lo w a b : Nat} (h : a + b ≤ lo ∨ lo + w ≤ a) : (showField lo w n).extractLsb' a b = 0#b :=
    extract_showField_other h
  subst hr
  simp only [Record.view0, Record.view1, BitVec.extractLsb'_or]
  refine ⟨?_, ?_, ?_, ?_, ?_, ?_, ?_, ?_, ?_, ?_, ?_⟩
  all_goals simp [extract_showField_self, other]

/-- The fields of a NOTE's record in CFVIEW0 are read back at their places (R187). -/
theorem view0_note_fields (q : QueueId) (seq mark : BitVec 16) {r : Record} (hr : r = .note q seq mark) :
    r.view0.extractLsb' 0 16 = BitVec.ofNat 16 seq.toNat ∧ r.view0.extractLsb' 16 2 = 3 ∧
    r.view0.extractLsb' 18 4 = 0 ∧ r.view0.extractLsb' 22 2 = BitVec.ofNat 2 q.val ∧ r.view0.extractLsb' 24 8 = 0 := by
  have other {n lo w a b : Nat} (h : a + b ≤ lo ∨ lo + w ≤ a) : (showField lo w n).extractLsb' a b = 0#b :=
    extract_showField_other h
  subst hr
  simp only [Record.view0, BitVec.extractLsb'_or]
  refine ⟨?_, ?_, ?_, ?_, ?_⟩
  all_goals simp [extract_showField_self, other]

/-- One bit read as a field of width 1. -/
theorem getLsbD_of_extract {x : Half} {n : Nat} {b : Bool} (h : x.extractLsb' n 1 = BitVec.ofNat 1 b.toNat) :
    x.getLsbD n = b := by
  have := congrArg (fun f => f.getLsbD 0) h
  simp only [BitVec.getLsbD_extractLsb', BitVec.getLsbD_ofNat] at this
  cases b <;> simpa using this

theorem statusCode_lt (x : Status) : x.code < 2 ^ 4 := by
  rcases x with _ | _ | f
  · decide
  · decide
  · cases f <;> decide

theorem jobKindCode_lt (x : JobKind) : x.code < 2 ^ 2 := by
  cases x <;> decide

/-- Settles O44. -/
theorem viewRegistersShowRecord : Obligations.ViewRegistersShowRecord := by
  refine ⟨by decide, fun s h k => by rw [State.showView, h], fun s kind status q seq tag done sat place h hd hs => ?job,
    fun s q seq mark h => ?note⟩
  case job =>
    obtain ⟨v0, v1, v2, v3⟩ := showView_of_some h
    obtain ⟨seqs, kinds, statuses, queues, tagged, tags, placed, top, dones, gap, sats⟩ :=
      view_job_fields kind status q seq tag done sat place rfl
    rw [v0, v1, v2, v3, seqs, kinds, statuses, queues, tags, dones, gap, sats, getLsbD_of_extract tagged,
      getLsbD_of_extract placed, getLsbD_of_extract (b := false) top]
    refine ⟨by simp, Nat.mod_eq_of_lt (jobKindCode_lt kind), Nat.mod_eq_of_lt (statusCode_lt status),
      Nat.mod_eq_of_lt q.isLt, rfl, ?_, rfl, rfl, Nat.mod_eq_of_lt (by omega), rfl, Nat.mod_eq_of_lt (by omega),
      ?_, ?_, ?_, ?_⟩
    · cases tag with
      | none => rfl
      | some t => exact Nat.mod_eq_of_lt t.isLt
    · rintro rfl
      exact ⟨rfl, rfl⟩
    · rintro b w rfl
      exact ⟨(toNat_showField (by omega) b.isLt).trans (Nat.mul_comm _ _),
        (toNat_showField (by omega) (by omega)).trans (Nat.mul_one _)⟩
    · rintro w rfl hw
      exact ⟨rfl, (toNat_showField (by omega) hw).trans (Nat.mul_one _)⟩
    · rintro n rfl
      exact ⟨rfl, (toNat_showField (by omega) (by omega)).trans (Nat.mul_one _)⟩
  case note =>
    obtain ⟨v0, v1, v2, v3⟩ := showView_of_some h
    obtain ⟨seqs, kinds, statuses, queues, gap⟩ := view0_note_fields q seq mark rfl
    rw [v0, v1, v2, v3, seqs, kinds, statuses, queues, gap]
    refine ⟨by simp, rfl, rfl, Nat.mod_eq_of_lt q.isLt, rfl, ?_, rfl, rfl⟩
    rw [Record.view1, showField_zero mark.isLt]
    exact BitVec.eq_of_toNat_eq (by simp)

end Sys2Proof.Laws

/-!
PROOFS. What a command's parts decode to (R26 to R28, R185), and when a job is serialized (R5, R14, R79).
-/

namespace Sys2Proof.Laws

open Sys2Proof.Machine Sys2Proof.Safety

/-! ### Fields read from the bits -/

theorem opCode_of_op {p : Parts} {op : Op} (h : p.op = some op) : opCode op = (p[0].extractLsb' 6 4).toNat := by
  unfold Parts.op at h
  generalize p[0].extractLsb' 6 4 = c at h ⊢
  revert h
  revert c
  cases op <;> decide

theorem width_bits (p : Parts) : p.width.bits = 8 * 2 ^ (p[0].extractLsb' 10 2).toNat := by
  unfold Parts.width
  generalize p[0].extractLsb' 10 2 = c
  revert c
  decide

theorem readsOp_of_op {p : Parts} {op : Op} (h : p.op = some op) : ReadsOp p op p.width :=
  ⟨opCode_of_op h, width_bits p⟩

theorem reportCode_of_report {p : Parts} {r : Report} (h : p.report = some r) :
    reportCode r = (p[0].extractLsb' 14 2).toNat := by
  unfold Parts.report at h
  generalize p[0].extractLsb' 14 2 = c at h ⊢
  revert h
  revert c
  cases r <;> decide

theorem mem_sideBanks (part : Half) (b : BankId) : b ∈ sideBanks part ↔ part.getLsbD (22 + b.val) = true := by
  simp [sideBanks, maskBanks]

theorem readsBanks_sideBanks (part : Half) : ReadsBanks part (sideBanks part) :=
  ⟨List.Pairwise.filter _ (List.pairwise_lt_finRange 8), mem_sideBanks part⟩

theorem readsSide_of_oneBankSide {part : Half} {x : Side} (h : oneBankSide part = some x) : ReadsSide part x := by
  rcases (oneBankSide_eq_some_iff part x).1 h with ⟨hs, b, hb, rfl⟩ | ⟨hs, rfl⟩ | ⟨hs, rfl⟩
  · exact ⟨hs, (mem_sideBanks part b).1 (by rw [hb]; exact List.mem_singleton_self b), rfl⟩
  · exact ⟨hs, rfl⟩
  · exact ⟨hs, rfl⟩

theorem manyBankSide_eq_some {least : Nat} {part : Half} {banks : List BankId} (h : manyBankSide least part = some banks) :
    banks = sideBanks part := by
  unfold manyBankSide at h
  split at h
  · exact (Option.some.inj h).symm
  · cases h

theorem twoSides_eq_some {p : Parts} {src dst : Side} (h : twoSides p = some (src, dst)) :
    oneBankSide p[1] = some src ∧ oneBankSide p[2] = some dst := by
  unfold twoSides at h
  split at h
  · rename_i hs hd
    split at h
    · cases h
    · cases h
      exact ⟨hs, hd⟩
  · cases h

theorem bitVec_eq_of_toNat {w : Nat} {x : BitVec w} {n : Nat} (h : x.toNat = n) : x = BitVec.ofNat w n := by
  rw [← h, BitVec.ofNat_toNat, BitVec.setWidth_eq]

/-- The work of a MOVE is read from the bits of its parts, mode by mode (R185). -/
theorem readsMove_of_moveWork {p : Parts} {w : Work} (h : p.moveWork = some w) : ReadsMove p w := by
  unfold Parts.moveWork at h
  split at h
  · rename_i mode
    split at h
    · rename_i src dst sides
      cases h
      obtain ⟨hs, hd⟩ := twoSides_eq_some sides
      exact ⟨bitVec_eq_of_toNat mode, readsSide_of_oneBankSide hs, readsSide_of_oneBankSide hd⟩
    · cases h
  · rename_i mode
    split at h
    · rename_i dst hd
      cases h
      exact ⟨bitVec_eq_of_toNat mode, rfl, readsSide_of_oneBankSide hd⟩
    · cases h
  · rename_i mode
    split at h
    · rename_i op src dst hop sides
      cases h
      obtain ⟨hs, hd⟩ := twoSides_eq_some sides
      exact ⟨bitVec_eq_of_toNat mode, readsOp_of_op hop, readsSide_of_oneBankSide hs, readsSide_of_oneBankSide hd⟩
    · cases h
  · rename_i mode
    split at h
    · rename_i op banks dst hop hb hd
      cases h
      obtain rfl := manyBankSide_eq_some hb
      exact ⟨bitVec_eq_of_toNat mode, readsOp_of_op hop, rfl, readsBanks_sideBanks _, rfl, readsSide_of_oneBankSide hd⟩
    · cases h
  · rename_i mode
    split at h
    · rename_i src banks hs hb
      cases h
      obtain rfl := manyBankSide_eq_some hb
      exact ⟨bitVec_eq_of_toNat mode, readsSide_of_oneBankSide hs, readsBanks_sideBanks _, rfl⟩
    · cases h
  · cases h

/-- A MOVE of legal form carries its parts, its count and the fields of part 0. -/
theorem moveForm_eq_some {p : Parts} {j : JobCommand} (h : p.moveForm = some j) :
    p.moveWork = some j.work ∧ p.report = some j.report ∧ j.parts = p ∧ j.priority = p.priority ∧ j.tag = p.tag ∧
      j.count = p.moveCount := by
  unfold Parts.moveForm at h
  split at h
  · rename_i work report hw hr
    cases h
    exact ⟨hw, hr, rfl, rfl, rfl, rfl⟩
  · cases h

/-- A TABLOAD of legal form loads from the one bank of its mask, 16 to 512 entries in groups of 16 (R28, R61). -/
theorem tabloadForm_eq_some {p : Parts} {j : JobCommand} (h : p.tabloadForm = some j) :
    (∃ b, sideBanks p[1] = [b] ∧ j.work = .tabload b (sideAddress p[1]) p.tableStart) ∧ p.report = some j.report ∧
      j.parts = p ∧ j.priority = p.priority ∧ j.tag = p.tag ∧ j.count = p.entryCount / 16 ∧ 16 ≤ p.entryCount ∧
      p.entryCount ≤ 512 := by
  unfold Parts.tabloadForm at h
  split at h
  · rename_i b report hb hr
    split at h
    · rename_i sizes
      cases h
      exact ⟨⟨b, hb, rfl⟩, hr, rfl, rfl, rfl, rfl, sizes.2.2.1, sizes.2.2.2⟩
    · cases h
  · cases h

theorem priority_val (p : Parts) : p.priority.val = (p[0].extractLsb' 12 2).toNat := by
  have := (p[0].extractLsb' 12 2).isLt
  exact Nat.mod_eq_of_lt this

theorem tag_isSome (p : Parts) : p.tag.isSome = true ↔ p[0].getLsbD 16 = true := by
  unfold Parts.tag Parts.flag
  split <;> simp_all

theorem tag_val {p : Parts} {t : TagId} (h : t ∈ p.tag) : t.val = (p[0].extractLsb' 17 5).toNat := by
  unfold Parts.tag at h
  split at h
  · cases h
    exact Nat.mod_eq_of_lt (p[0].extractLsb' 17 5).isLt
  · cases h

theorem readsHeader_of {p : Parts} {j : JobCommand} (hp : j.parts = p) (hpr : j.priority = p.priority)
    (hr : p.report = some j.report) (ht : j.tag = p.tag) : ReadsHeader p j :=
  ⟨hp, hpr ▸ priority_val p, reportCode_of_report hr, ht ▸ tag_isSome p, fun _ h => tag_val (ht ▸ h)⟩

/-! ### The range check of a MOVE -/

/-- A side is in direct external memory and beyond S exactly where its bits say so. -/
theorem directAddress_all {part : Half} {x : Side} (h : ReadsSide part x) (size : XSize) (n : Nat) :
    (x.directAddress.all fun a => a.toNat + n ≤ size.bursts) = true ↔ ¬BeyondExternal size n part := by
  unfold BeyondExternal sideSpace sideAddress
  cases x with
  | bank b a => simp [Side.directAddress, h.1]
  | ext a => simp [Side.directAddress, h.1, h.2]
  | extseg m => simp [Side.directAddress, h.1]

/-- A BANK side is not beyond external memory. -/
theorem not_beyond_of_banks {part : Half} (h : sideSpace part = 0) (size : XSize) (n : Nat) :
    ¬BeyondExternal size n part := by
  rintro ⟨ext, -⟩
  rw [h] at ext
  simp at ext

/-- A side that may select several banks is a BANK side: the source of a MERGE and the destination of a SPREAD. -/
theorem sideSpace_of_mode {p : Parts} (legal : MoveFormLegal p) :
    (p.mode = 3 → sideSpace p[1] = 0) ∧ (p.mode = 4 → sideSpace p[2] = 0) := by
  obtain ⟨-, ⟨mode, -⟩ | ⟨mode, -⟩ | ⟨mode, -⟩ | ⟨mode, -, space, -⟩ | ⟨mode, -, space, -⟩⟩ := legal
  case inr.inr.inr.inl => exact ⟨fun _ => space, fun h => by rw [mode] at h; simp at h⟩
  case inr.inr.inr.inr => exact ⟨fun h => by rw [mode] at h; simp at h, fun _ => space⟩
  all_goals exact ⟨fun h => by rw [mode] at h; simp at h, fun h => by rw [mode] at h; simp at h⟩

/-- Check 4 on a MOVE of legal form, in the bits of its two sides. -/
theorem inRange_iff {p : Parts} {j : JobCommand} (h : p.moveForm = some j) (x : XSize) :
    j.inRange x = true ↔
      ¬((p.mode ≠ 1 ∧ BeyondExternal x p.moveCount p[1]) ∨ BeyondExternal x p.moveCount p[2]) := by
  obtain ⟨hw, -, -, -, -, hc⟩ := moveForm_eq_some h
  have reads := readsMove_of_moveWork hw
  unfold JobCommand.inRange
  rw [hc]
  have spaces := sideSpace_of_mode ((moveForm_isSome p).1 (by rw [h]; rfl))
  generalize j.work = w at reads hw
  cases w with
  | copy src dst =>
    obtain ⟨mode, hs, hd⟩ := reads
    simp only [Work.extSides, List.all_append, Bool.and_eq_true, directAddress_all hs, directAddress_all hd, mode]
    simp
  | fill pattern dst =>
    obtain ⟨mode, -, hd⟩ := reads
    simp only [Work.extSides, directAddress_all hd, mode]
    simp
  | accum op width src dst =>
    obtain ⟨mode, -, hs, hd⟩ := reads
    simp only [Work.extSides, List.all_append, Bool.and_eq_true, directAddress_all hs, directAddress_all hd, mode]
    simp
  | merge op width acc banks a dst =>
    obtain ⟨mode, -, -, -, -, hd⟩ := reads
    simp only [Work.extSides, directAddress_all hd, mode, not_beyond_of_banks (spaces.1 mode)]
    simp
  | spread src banks a =>
    obtain ⟨mode, hs, -, -⟩ := reads
    simp only [Work.extSides, directAddress_all hs, mode, not_beyond_of_banks (spaces.2 mode)]
    simp
  | tabload => exact reads.elim

/-! ### The four checks -/

theorem decode_move {p : Parts} {j : JobCommand} (x : XSize) (hk : p.kind = 1) (h : p.moveForm = some j) :
    p.decode x =
      if j.count = 0 ∨ 8192 < j.count then .error .badLength
      else if j.inRange x then .ok (.job j)
      else .error (.job .extRange) := by
  simp [Parts.decode, hk, h]

theorem decode_tabload {p : Parts} {j : JobCommand} (x : XSize) (hk : p.kind = 2) (h : p.tabloadForm = some j) :
    p.decode x = .ok (.job j) := by
  simp [Parts.decode, hk, h]

theorem decode_badKind {p : Parts} (x : XSize) (h1 : p.kind ≠ 1) (h2 : p.kind ≠ 2) (h3 : p.kind ≠ 3) (h4 : p.kind ≠ 4) :
    p.decode x = .error .badKind := by
  unfold Parts.decode
  generalize p.kind = k at h1 h2 h3 h4
  split
  · exact absurd (bitVec_eq_of_toNat ‹_›) h1
  · exact absurd (bitVec_eq_of_toNat ‹_›) h2
  · exact absurd (bitVec_eq_of_toNat ‹_›) h3
  · exact absurd (bitVec_eq_of_toNat ‹_›) h4
  · rfl

/-- Settles O12: a legal form gives a job, whose length and range are then checked in that order. -/
theorem decodeChecksInOrder : Obligations.DecodeChecksInOrder := by
  refine fun x p => ⟨decode_badKind x, fun hk legal => ?move, fun hk legal => ?tabload, decode_wait x, decode_note x⟩
  case move =>
    obtain ⟨j, hj⟩ := Option.isSome_iff_exists.1 ((moveForm_isSome p).2 legal)
    obtain ⟨hw, hr, hp, hpr, ht, hc⟩ := moveForm_eq_some hj
    rw [decode_move x hk hj, hc]
    refine ⟨fun length => if_pos length, fun least most => ?_⟩
    rw [if_neg (by omega)]
    refine ⟨fun beyond => if_neg fun ok => (inRange_iff hj x).1 ok beyond, fun within => ?_⟩
    exact ⟨j, if_pos ((inRange_iff hj x).2 within), hc, readsHeader_of hp hpr hr ht, readsMove_of_moveWork hw⟩
  case tabload =>
    obtain ⟨j, hj⟩ := Option.isSome_iff_exists.1 ((tabloadForm_isSome p).2 legal)
    obtain ⟨⟨b, hb, hw⟩, hr, hp, hpr, ht, hc, -, -⟩ := tabloadForm_eq_some hj
    refine ⟨j, decode_tabload x hk hj, hc, readsHeader_of hp hpr hr ht, b, (mem_sideBanks _ b).1 ?_, hw⟩
    rw [hb]
    exact List.mem_singleton_self b

/-! ### Serialization -/

/-- Two ranges of one bank share a burst exactly when the start of one lies in the other, with the wrap (R5). -/
theorem bankRangesOverlap_iff {n : Nat} (hn : 1 ≤ n) (a d : Nat) :
    bankRangesOverlap a n d n = true ↔ BankRangesMeet n a d := by
  unfold bankRangesOverlap BankRangesMeet
  rw [Bool.or_eq_true, decide_eq_true_eq, decide_eq_true_eq]
  constructor
  · rintro (h | h)
    · exact ⟨(d + 1024 - a % 1024) % 1024, 0, h, by omega, by omega⟩
    · exact ⟨0, (a + 1024 - d % 1024) % 1024, by omega, h, by omega⟩
  · rintro ⟨i, k, hi, hk, e⟩
    by_cases order : k ≤ i
    · left
      have : (d + 1024 - a % 1024) % 1024 = (i - k) % 1024 := by omega
      exact this ▸ Nat.lt_of_le_of_lt (Nat.mod_le _ _) (by omega)
    · right
      have : (a + 1024 - d % 1024) % 1024 = (k - i) % 1024 := by omega
      exact this ▸ Nat.lt_of_le_of_lt (Nat.mod_le _ _) (by omega)

theorem bankSelfOverlap_iff {n : Nat} (hn : 1 ≤ n) (a d : Nat) :
    bankSelfOverlap a d n = true ↔ BankRangesMeet n a d ∧ a % 1024 ≠ d % 1024 := by
  rw [bankSelfOverlap, Bool.and_eq_true, bankRangesOverlap_iff hn, bne_iff_ne]
  exact and_congr_right fun _ => by omega

theorem extSelfOverlap_iff (a d : BitVec 22) (n : Nat) :
    extSelfOverlap a.toNat d.toNat n = true ↔ ExtRangesMeet n a.toNat d.toNat ∧ a ≠ d := by
  have distinct : a ≠ d ↔ a.toNat ≠ d.toNat := not_congr ⟨congrArg _, BitVec.eq_of_toNat_eq⟩
  simp only [extSelfOverlap, Bool.and_eq_true, decide_eq_true_eq, bne_iff_ne, distinct]
  refine and_congr_left fun _ => ⟨fun ⟨below, above⟩ => ?_, fun ⟨i, k, hi, hk, e⟩ => by omega⟩
  by_cases order : a.toNat ≤ d.toNat
  · exact ⟨d.toNat - a.toNat, 0, by omega, by omega, by omega⟩
  · exact ⟨0, a.toNat - d.toNat, by omega, by omega, by omega⟩

/-- Two sides overlap with a non-zero offset in one of the two ways of R79. -/
theorem sidesSelfOverlap_iff {n : Nat} (hn : 1 ≤ n) (src dst : Side) :
    sidesSelfOverlap src dst n = true ↔ SidesOverlap n src dst := by
  unfold SidesOverlap
  cases src with
  | bank b a =>
    cases dst with
    | bank c d =>
      simp only [sidesSelfOverlap, Bool.and_eq_true, beq_iff_eq, bankSelfOverlap_iff hn]
      constructor
      · rintro ⟨rfl, h⟩
        exact .inl ⟨b, a, d, rfl, rfl, h⟩
      · rintro (⟨e, x, y, hx, hy, h⟩ | ⟨x, y, hx, -⟩)
        · cases hx
          cases hy
          exact ⟨rfl, h⟩
        · cases hx
    | ext d => simp [sidesSelfOverlap]
    | extseg d => simp [sidesSelfOverlap]
  | ext a =>
    cases dst with
    | bank c d => simp [sidesSelfOverlap]
    | ext d => simp [sidesSelfOverlap, extSelfOverlap_iff]
    | extseg d => simp [sidesSelfOverlap]
  | extseg m => simp [sidesSelfOverlap]

/-- Settles O13, mode by mode. -/
theorem serializedExactlyOnOverlap : Obligations.SerializedExactlyOnOverlap := by
  intro j hn
  refine ⟨fun src dst hw => ?_, fun op w src dst hw => ?_, fun op w acc banks a dst hw => ?_,
    fun src banks a hw => ?_, fun pattern dst hw => ?_, fun b a start hw => ?_⟩
  · rw [JobCommand.serialized, hw, ← sidesSelfOverlap_iff hn]
  · rw [JobCommand.serialized, hw, ← sidesSelfOverlap_iff hn]
  · simp only [JobCommand.serialized, hw, List.any_eq_true, sidesSelfOverlap_iff hn]
  · simp only [JobCommand.serialized, hw, List.any_eq_true, sidesSelfOverlap_iff hn]
  · rw [JobCommand.serialized, hw]
  · rw [JobCommand.serialized, hw]

end Sys2Proof.Laws

/-!
PROOFS. The reduction of whole words and folds (chapter 05), and what a combine computes (R71 to R77, R98 to R101).
-/

namespace Sys2Proof.Laws

open Sys2Proof.Machine Sys2Proof.Safety

/-! ### Elements of a result word -/

theorem element_applyWord (op : Op) (width : Width) (x y : Word) {j : Nat} (hj : j < 64 / width.bits) :
    element width.bits j (applyWord op width x y) =
      (apply op (element width.bits j x) (element width.bits j y)).1 := by
  have hw := bits_pos width
  apply BitVec.eq_of_getLsbD_eq
  intro i hi
  have inside : j * width.bits + i < 64 := by
    have : (j + 1) * width.bits ≤ 64 := (Nat.le_div_iff_mul_le hw).1 hj
    rw [Nat.succ_mul] at this
    omega
  have number : (j * width.bits + i) / width.bits = j := by
    rw [Nat.mul_comm, Nat.mul_add_div hw, Nat.div_eq_of_lt hi, Nat.add_zero]
  have place : (j * width.bits + i) % width.bits = i := by
    rw [Nat.mul_comm, Nat.mul_add_mod, Nat.mod_eq_of_lt hi]
  have bit := getLsbD_applyWord op width x y inside
  rw [number, place] at bit
  rw [element, BitVec.getLsbD_extractLsb', bit]
  simp [hi]

/-- Settles O47. -/
theorem elementsIndependent : Obligations.ElementsIndependent :=
  fun op width x y => ⟨fun _ => element_applyWord op width x y, rfl⟩

/-- Words with the same elements are equal. -/
theorem word_ext {width : Width} {x y : Word} (h : ∀ j, j < 64 / width.bits → element width.bits j x = element width.bits j y) :
    x = y := by
  have hw := bits_pos width
  apply BitVec.eq_of_getLsbD_eq
  intro i hi
  have fits : i / width.bits < 64 / width.bits := by
    cases width <;> simp only [Width.bits] <;> omega
  rw [← getLsbD_element hw x i, h _ fits, getLsbD_element hw]

/-! ### Operators that do not clamp -/

/-- On elements the operator never clamps, is commutative and is associative (R101). -/
def OrderFree (op : Op) : Prop :=
  ∀ (width : Width) (a b c : BitVec width.bits),
    (apply op a b).2 = false ∧ (apply op a b).1 = (apply op b a).1 ∧
      (apply op (apply op a b).1 c).1 = (apply op a (apply op b c).1).1

theorem orderFree_of_ne {op : Op} (hs : op ≠ .adds) (hu : op ≠ .addu) : OrderFree op := by
  intro width a b c
  obtain ⟨-, -, -, -, compares⟩ := comparisonsSelect width.bits a b c
  cases op with
  | adds => exact absurd rfl hs
  | addu => exact absurd rfl hu
  | add => exact ⟨rfl, BitVec.add_comm a b, BitVec.add_assoc a b c⟩
  | maxs => exact (compares .maxs (by simp)).2
  | mins => exact (compares .mins (by simp)).2
  | maxu => exact (compares .maxu (by simp)).2
  | minu => exact (compares .minu (by simp)).2
  | and => exact ⟨rfl, BitVec.and_comm a b, BitVec.and_assoc a b c⟩
  | or => exact ⟨rfl, BitVec.or_comm a b, BitVec.or_assoc a b c⟩
  | xor => exact ⟨rfl, BitVec.xor_comm a b, BitVec.xor_assoc a b c⟩

section OrderFreeFold

variable {op : Op} (free : OrderFree op) (width : Width)

include free

theorem clampsWord_of_orderFree (x y : Word) : clampsWord op width x y = 0 := by
  simp [clampsWord, fun a b => (free width a b a).1]

theorem applyWord_comm (x y : Word) : applyWord op width x y = applyWord op width y x :=
  word_ext (width := width) fun j hj => by
    rw [element_applyWord _ _ _ _ hj, element_applyWord _ _ _ _ hj, (free width _ _ 0).2.1]

theorem applyWord_assoc (x y z : Word) :
    applyWord op width (applyWord op width x y) z = applyWord op width x (applyWord op width y z) :=
  word_ext (width := width) fun j hj => by
    simp only [element_applyWord _ _ _ _ hj, (free width _ _ _).2.2]

theorem clampsBurst_of_orderFree (x y : BurstData) : clampsBurst op width x y = 0 := by
  simp [clampsBurst, clampsWord_of_orderFree free width]

end OrderFreeFold

/-- Bursts with the same words are equal. -/
theorem burst_ext {x y : BurstData} (h : ∀ n : Fin 8, x[n] = y[n]) : x = y :=
  Vector.ext fun i hi => h ⟨i, hi⟩

theorem getElem_applyBurst (op : Op) (width : Width) (x y : BurstData) (n : Fin 8) :
    (applyBurst op width x y)[n] = applyWord op width x[n] y[n] :=
  getElem_mkBurst _ n

section OrderFreeBursts

variable {op : Op} (free : OrderFree op) (width : Width)

include free

theorem applyBurst_comm (x y : BurstData) : applyBurst op width x y = applyBurst op width y x :=
  burst_ext fun n => by rw [getElem_applyBurst, getElem_applyBurst, applyWord_comm free]

theorem applyBurst_assoc (x y z : BurstData) :
    applyBurst op width (applyBurst op width x y) z = applyBurst op width x (applyBurst op width y z) :=
  burst_ext fun n => by simp only [getElem_applyBurst, applyWord_assoc free]

theorem foldBursts_clamps (x : BurstData) (ys : List BurstData) : (foldBursts op width x ys).2 = 0 := by
  induction ys generalizing x with
  | nil => rfl
  | cons y ys ih => simp [foldBursts, ih, clampsBurst_of_orderFree free]

/-- The first operand may be applied last. -/
theorem foldBursts_cons (x y : BurstData) (ys : List BurstData) :
    (foldBursts op width x (y :: ys)).1 = applyBurst op width x (foldBursts op width y ys).1 := by
  induction ys generalizing x y with
  | nil => rfl
  | cons z ys ih =>
    have left := ih (applyBurst op width x y) z
    have right := ih y z
    simp only [foldBursts] at left right ⊢
    rw [left, right, applyBurst_assoc free]

theorem foldSources_cons_cons (x y : BurstData) (l : List BurstData) :
    (foldSources op width (x :: y :: l)).1 = applyBurst op width x (foldSources op width (y :: l)).1 :=
  foldBursts_cons free width x y l

/-- Neither the words nor the count of a fold depend on the order of the sources. -/
theorem foldSources_perm {ds es : List BurstData} (h : ds.Perm es) : foldSources op width ds = foldSources op width es := by
  have count : ∀ l : List BurstData, (foldSources op width l).2 = 0 := fun l => by
    cases l with
    | nil => rfl
    | cons x l => exact foldBursts_clamps free width x l
  refine Prod.ext ?_ ((count ds).trans (count es).symm)
  induction h with
  | nil => rfl
  | @cons x l m perm ih =>
    cases l with
    | nil => rw [List.nil_perm.1 perm]
    | cons y l =>
      cases m with
      | nil => exact absurd perm.length_eq (by simp)
      | cons z m => rw [foldSources_cons_cons free, foldSources_cons_cons free, ih]
  | swap x y l =>
    cases l with
    | nil => exact applyBurst_comm free width y x
    | cons z l =>
      simp only [foldSources_cons_cons free]
      rw [← applyBurst_assoc free, applyBurst_comm free width y x, applyBurst_assoc free]
  | trans _ _ ih ih' => exact ih.trans ih'

end OrderFreeBursts

/-! ### ADDU -/

theorem toNat_apply_addu {w : Nat} (a b : BitVec w) : (apply .addu a b).1.toNat = min (a.toNat + b.toNat) (2 ^ w - 1) := by
  by_cases h : 2 ^ w - 1 < a.toNat + b.toNat
  · rw [Nat.min_eq_right (Nat.le_of_lt h)]
    exact (holdUnsigned_above h).1
  · rw [Nat.min_eq_left (Nat.not_lt.1 h)]
    exact (holdUnsigned_within (Nat.not_lt.1 h)).1

/-- A fold under ADDU holds the exact total at the top of the range. -/
theorem element_foldBursts_addu (width : Width) (n : Fin 8) {j : Nat} (hj : j < 64 / width.bits) (x : BurstData)
    (ys : List BurstData) :
    (element width.bits j ((foldBursts .addu width x ys).1[n])).toNat =
      min ((element width.bits j x[n]).toNat + (ys.map fun d => (element width.bits j d[n]).toNat).sum)
        (2 ^ width.bits - 1) := by
  induction ys generalizing x with
  | nil =>
    have := (element width.bits j x[n]).isLt
    simp only [foldBursts, List.map_nil, List.sum_nil, Nat.add_zero]
    omega
  | cons y ys ih =>
    simp only [foldBursts, List.map_cons, List.sum_cons]
    rw [ih, getElem_applyBurst, element_applyWord _ _ _ _ hj, toNat_apply_addu]
    omega

/-! ### The order of a fold -/

/-- A burst whose eight words are the same. -/
def constantBurst (x : Word) : BurstData := mkBurst fun _ => x

/-- Under ADDU a sum that is held early is held again by every later operand. -/
theorem addu_count_by_order :
    (foldSources .addu .w8 [constantBurst 255, constantBurst 1, constantBurst 1]).2 = 16 ∧
      (foldSources .addu .w8 [constantBurst 1, constantBurst 1, constantBurst 255]).2 = 8 := by
  decide +kernel

/-- Under ADDS a sum that is held and then falls differs from one that never leaves the range. -/
theorem adds_by_order :
    foldSources .adds .w8 [constantBurst 100, constantBurst 100, constantBurst 156] = (constantBurst 27, 8) ∧
      foldSources .adds .w8 [constantBurst 100, constantBurst 156, constantBurst 100] = (constantBurst 100, 0) := by
  decide +kernel

/-- Settles O51. -/
theorem foldOrderMatters : Obligations.FoldOrderMatters := by
  refine ⟨fun op width ds es hs hu perm => foldSources_perm (orderFree_of_ne hs hu) width perm,
    fun width ds n j nonempty hj => ?held,
    ⟨[constantBurst 255, constantBurst 1, constantBurst 1], [constantBurst 1, constantBurst 1, constantBurst 255],
      List.perm_append_comm (l₁ := [constantBurst 255]), ?addu⟩,
    ⟨[constantBurst 100, constantBurst 100, constantBurst 156], [constantBurst 100, constantBurst 156, constantBurst 100],
      (List.Perm.swap (constantBurst 156) (constantBurst 100) []).cons (constantBurst 100), ?words, ?count⟩⟩
  case held =>
    cases ds with
    | nil => exact absurd rfl nonempty
    | cons x ys => exact element_foldBursts_addu width n hj x ys
  case addu =>
    rw [addu_count_by_order.1, addu_count_by_order.2]
    decide
  case words =>
    rw [adds_by_order.1, adds_by_order.2]
    decide +kernel
  case count =>
    rw [adds_by_order.1, adds_by_order.2]
    decide

/-! ### The combine -/

/-- The returned reads of a burst's sources, in their places. -/
theorem returnedSources_words (places : List Place) (ds : List BurstData) (h : places.length = ds.length) :
    (((places.zip ds).map fun x => ({ role := .source, place := x.1, stage := .returned x.2 } : ReadRequest)).filter
      fun r => r.role = .source).filterMap ReadRequest.words? = ds := by
  induction places generalizing ds with
  | nil =>
    cases ds with
    | nil => rfl
    | cons d ds => cases h
  | cons p places ih =>
    cases ds with
    | nil => cases h
    | cons d ds => simpa [ReadRequest.words?] using ih ds (by simpa using h)

theorem returnedSources_old (places : List Place) (ds : List BurstData) :
    ((places.zip ds).map fun x => ({ role := .source, place := x.1, stage := .returned x.2 } : ReadRequest)).filter
      (fun r => r.role = .oldDestination) = [] :=
  List.filter_eq_nil_iff.2 fun r hr => by
    obtain ⟨x, -, rfl⟩ := List.mem_map.1 hr
    simp

/-- Settles O24. -/
theorem combineComputes : Obligations.CombineComputes := by
  intro b first rest dst d ds old sources oldRead hlen hs ho
  have words : (sources.filter fun r => r.role = .source).filterMap ReadRequest.words? = d :: ds := by
    rw [hs]
    exact returnedSources_words (first :: rest) (d :: ds) (by simp [hlen])
  have noOld : sources.filter (fun r => r.role = .oldDestination) = [] := by
    rw [hs]
    exact returnedSources_old (first :: rest) (d :: ds)
  have both : b.reads = sources ++ [oldRead] →
      (b.reads.filter fun r => r.role = .source).filterMap ReadRequest.words? = d :: ds ∧
        (b.reads.filter fun r => r.role = .oldDestination).filterMap ReadRequest.words? = [old] := by
    intro hb
    subst ho
    rw [hb, List.filter_append, List.filter_append, List.filterMap_append, words, noOld]
    exact ⟨by simp, rfl⟩
  refine ⟨fun src side hb => ?_, fun src banks a hb => ?_, fun op w src side hb => ?_, fun op w banks a side hb => ?_,
    fun op w banks a side hb => ?_⟩
  · simp [Burst.combined, hb, words]
  · simp [Burst.combined, hb, words]
  · obtain ⟨hsrc, hold⟩ := both hb
    simp [Burst.combined, hsrc, hold, foldOldDestination]
  · simp [Burst.combined, hb, words, foldSources]
  · obtain ⟨hsrc, hold⟩ := both hb
    simp [Burst.combined, hsrc, hold, foldOldDestination, foldSources]

end Sys2Proof.Laws

/-!
PROOFS. The addresses of a burst (R67), the segment walk (R121 to R128), and the order in which the arbiters choose
(R135, R151).
-/

namespace Sys2Proof.Laws

open Sys2Proof.Machine Sys2Proof.Safety

/-! ### The addresses of a burst -/

section Resolve

variable (x : XSize) (table : Vector SegEntry 512) (i : Nat)

/-- A job of two sides resolves its source, then its destination from the cursor the source left. -/
theorem resolveBurst_twoSides {src dst : Side} {cur : Option Cursor} {work : Work}
    (h : work = .copy src dst ∨ ∃ op w, work = .accum op w src dst) :
    (∀ p c q d, resolveSide x table i src cur = (.ok p, c) → resolveSide x table i dst c = (.ok q, d) →
      resolveBurst x table i work cur = (.ok ([p], [q]), d)) ∧
    (∀ f c, resolveSide x table i src cur = (.error f, c) → resolveBurst x table i work cur = (.error f, c)) ∧
    ∀ p c f d, resolveSide x table i src cur = (.ok p, c) → resolveSide x table i dst c = (.error f, d) →
      resolveBurst x table i work cur = (.error f, d) := by
  obtain rfl | ⟨op, w, rfl⟩ := h
  all_goals
    refine ⟨fun p c q d hs hd => ?_, fun f c hs => ?_, fun p c f d hs hd => ?_⟩ <;>
      simp [resolveBurst, resolveSources, resolveDests, Except.map, *]

theorem resolveBurst_merge (op : Op) (w : Width) (acc : Bool) (banks : List BankId) (a : BitVec 22) (dst : Side)
    (cur : Option Cursor) :
    (∀ q d, resolveSide x table i dst cur = (.ok q, d) →
      resolveBurst x table i (.merge op w acc banks a dst) cur =
        (.ok (banks.map fun b => .bank b (bankBurstAt a i), [q]), d)) ∧
    ∀ f d, resolveSide x table i dst cur = (.error f, d) →
      resolveBurst x table i (.merge op w acc banks a dst) cur = (.error f, d) := by
  constructor <;> intro q d hd <;>
    simp [resolveBurst, resolveSources, resolveDests, manyBankPlaces, hd, Except.map]

theorem resolveBurst_spread (src : Side) (banks : List BankId) (a : BitVec 22) (cur : Option Cursor) :
    (∀ p c, resolveSide x table i src cur = (.ok p, c) →
      resolveBurst x table i (.spread src banks a) cur =
        (.ok ([p], banks.map fun b => .bank b (bankBurstAt a i)), c)) ∧
    ∀ f c, resolveSide x table i src cur = (.error f, c) →
      resolveBurst x table i (.spread src banks a) cur = (.error f, c) := by
  constructor <;> intro p c hs <;>
    simp [resolveBurst, resolveSources, resolveDests, manyBankPlaces, hs, Except.map]

theorem resolveBurst_fill (pattern : Half) (dst : Side) (cur : Option Cursor) :
    (∀ q d, resolveSide x table i dst cur = (.ok q, d) →
      resolveBurst x table i (.fill pattern dst) cur = (.ok ([], [q]), d)) ∧
    ∀ f d, resolveSide x table i dst cur = (.error f, d) →
      resolveBurst x table i (.fill pattern dst) cur = (.error f, d) := by
  constructor <;> intro q d hd <;> simp [resolveBurst, resolveSources, resolveDests, hd, Except.map]

end Resolve

/-- The walk of a job begins at the start index of its EXTSEG side. -/
theorem walkStart_extseg (a : BitVec 22) (side : Side) (op : Op) (w : Width) (banks : List BankId) (e : BitVec 22)
    (acc : Bool) :
    (Work.copy (.extseg a) side).walkStart = some (Fin.ofNat 512 a.toNat) ∧
    (Work.accum op w (.extseg a) side).walkStart = some (Fin.ofNat 512 a.toNat) ∧
    (Work.spread (.extseg a) banks e).walkStart = some (Fin.ofNat 512 a.toNat) ∧
    (Work.fill 0 (.extseg a)).walkStart = some (Fin.ofNat 512 a.toNat) ∧
    (Work.merge op w acc banks e (.extseg a)).walkStart = some (Fin.ofNat 512 a.toNat) ∧
    (side.isExtseg = false →
      (Work.copy side (.extseg a)).walkStart = some (Fin.ofNat 512 a.toNat) ∧
      (Work.accum op w side (.extseg a)).walkStart = some (Fin.ofNat 512 a.toNat)) := by
  refine ⟨rfl, rfl, rfl, rfl, rfl, fun other => ?_⟩
  cases side with
  | extseg m => cases other
  | _ => exact ⟨rfl, rfl⟩

/-- Settles O20. -/
theorem sideAddressAtIndex : Obligations.SideAddressAtIndex := by
  intro x table i a cur
  have burst : (bankBurstAt a i).val = (a.toNat + i) % 1024 := rfl
  refine ⟨fun b => ⟨_, burst, rfl⟩, fun within => ?_, fun beyond => ?_, fun c n d walk => ?_, fun c f d walk => ?_,
    ⟨_, rfl, walkStart_extseg a⟩, fun src dst op w work h => resolveBurst_twoSides x table i ?_, _, burst, ?_, ?_,
    fun pattern dst => resolveBurst_fill x table i pattern dst cur, fun b start => rfl⟩
  · simp [resolveSide, within]
  · simp [resolveSide, Nat.not_lt.2 beyond]
  · simp [resolveSide, walk, Except.map]
  · simp [resolveSide, walk, Except.map]
  · exact h.imp_right fun h => ⟨op, w, h⟩
  · rintro op w acc banks dst _ rfl
    exact resolveBurst_merge x table i op w acc banks a dst cur
  · rintro src banks _ rfl
    exact resolveBurst_spread x table i src banks a cur

/-! ### The walk -/

/-- The bursts that a cursor has left in its run. -/
def Cursor.remaining (c : Cursor) : Nat := 4 * c.left - c.position

/-- The cursor is within a run, at one of the four bursts of a segment. -/
def Cursor.Inside (c : Cursor) : Prop := c.left ≠ 0 ∧ c.position ≤ 3

theorem Cursor.advance_inside {c : Cursor} {n : Nat} (inside : Cursor.Inside c) (more : Cursor.remaining c = n + 2) :
    Cursor.Inside c.advance ∧ Cursor.remaining c.advance = n + 1 ∧ c.advance.burst = c.burst + 1 ∧
      c.advance.stopHeld = c.stopHeld ∧ c.advance.index = c.index := by
  obtain ⟨left, position⟩ := inside
  unfold Cursor.remaining at more
  unfold Cursor.advance Cursor.Inside Cursor.remaining Cursor.burst
  by_cases h : c.position < 3
  · simp only [h, if_true]
    exact ⟨⟨left, by omega⟩, by omega, by omega, trivial, trivial⟩
  · have : 1 < c.left := by omega
    simp only [h, this, if_false, if_true]
    exact ⟨⟨by omega, by omega⟩, by omega, by omega, trivial, trivial⟩

/-- The last burst of a run uses it up: the index moves on, or stays when stop is held (R124). -/
theorem Cursor.advance_last {c : Cursor} (inside : Cursor.Inside c) (last : Cursor.remaining c = 1) :
    c.advance.left = 0 ∧ c.advance.position = 0 ∧ c.advance.stopHeld = c.stopHeld ∧
      c.advance.index = if c.stopHeld = true then c.index else c.index + 1 := by
  obtain ⟨left, position⟩ := inside
  unfold Cursor.remaining at last
  unfold Cursor.advance
  rw [if_neg (by omega), if_neg (by omega)]
  cases c.stopHeld <;> simp

/-- Within a run a burst is the cursor's, whatever the table and the size of external memory. -/
theorem walkBurst_inside (x : XSize) (table : Vector SegEntry 512) {c : Cursor} (h : c.left ≠ 0) :
    walkBurst x table c = (.ok c.burst, c.advance) := by
  simp [walkBurst, h]

/-- The rest of a run is taken in ascending order. -/
theorem walkMany_inside (x : XSize) (table : Vector SegEntry 512) (n : Nat) (c : Cursor) (inside : Cursor.Inside c)
    (rest : Cursor.remaining c = n + 1) :
    ∃ d, walkMany x table (n + 1) c = (.ok ((List.range (n + 1)).map fun k => c.burst + k), d) ∧
      d.left = 0 ∧ d.position = 0 ∧ d.stopHeld = c.stopHeld ∧
      d.index = if c.stopHeld = true then c.index else c.index + 1 := by
  induction n generalizing c with
  | zero =>
    refine ⟨c.advance, ?_, Cursor.advance_last inside rest⟩
    simp [walkMany, walkBurst_inside x table inside.1]
  | succ n ih =>
    obtain ⟨inside', rest', next, stop, index⟩ := Cursor.advance_inside inside rest
    obtain ⟨d, walk, left, position, stop', index'⟩ := ih c.advance inside' rest'
    refine ⟨d, ?_, left, position, stop'.trans stop, by rw [index', stop, index]⟩
    rw [walkMany, walkBurst_inside x table inside.1]
    simp only [walk]
    rw [List.range_succ_eq_map (n := n + 1), List.map_cons, List.map_map, next]
    simp [Function.comp_def, Nat.add_assoc, Nat.add_comm 1]

/-- A valid entry in range is loaded, and the walk goes on as within its run. -/
theorem walkBurst_load {x : XSize} {table : Vector SegEntry 512} {c : Cursor} {e : SegEntry} (hl : c.left = 0)
    (hs : c.stopHeld = false) (he : table[c.index] = e) (check : checkEntry x c.index e = none) :
    walkBurst x table c = walkBurst x table (c.load e) := by
  rw [walkBurst_inside x table (c := c.load e) (Nat.succ_ne_zero _)]
  simp only [walkBurst, hl, if_true, hs, Bool.false_eq_true, if_false, he, check]

theorem walkBurst_fault {x : XSize} {table : Vector SegEntry 512} {c : Cursor} {e : SegEntry} {f : PlacedFault}
    (hl : c.left = 0) (hs : c.stopHeld = false) (he : table[c.index] = e) (check : checkEntry x c.index e = some f) :
    (walkBurst x table c).1 = .error f := by
  simp only [walkBurst, hl, if_true, hs, Bool.false_eq_true, if_false, he, check]

theorem walkBurst_overrun {x : XSize} {table : Vector SegEntry 512} {c : Cursor} (hl : c.left = 0)
    (hs : c.stopHeld = true) :
    (walkBurst x table c).1 = .error { fault := .segOverrun, place := .segtab c.index } := by
  simp [walkBurst, hl, hs]

/-- Settles O21. -/
theorem walkUsesRunInOrder : Obligations.WalkUsesRunInOrder := by
  refine ⟨fun x y table other c h => by rw [walkBurst_inside x table h, walkBurst_inside y other h],
    fun x table c e hl hs he => ?_⟩
  refine ⟨fun hv hr => ?run, fun hv => walkBurst_fault hl hs he (by simp [checkEntry, hv]),
    fun hv hr => walkBurst_fault hl hs he (by simp [checkEntry, hv, hr])⟩
  case run =>
    have check : checkEntry x c.index e = none := by simp [checkEntry, hv, Nat.not_lt.2 hr]
    have inside : Cursor.Inside (c.load e) := ⟨Nat.succ_ne_zero _, Nat.zero_le 3⟩
    have length : 4 * e.runLength = 4 * e.lengthMinusOne.toNat + 3 + 1 := by
      rw [SegEntry.runLength]
      omega
    obtain ⟨d, walk, left, position, stop, index⟩ :=
      walkMany_inside x table (4 * e.lengthMinusOne.toNat + 3) (c.load e) inside (by rw [← length]; rfl)
    have stop : d.stopHeld = e.stop := stop
    have index : d.index = if e.stop = true then c.index else c.index + 1 := index
    refine ⟨d, ?_, left, position, stop, fun off => by rw [index, off]; rfl, fun on => ⟨by rw [index, if_pos on], ?_⟩⟩
    · rw [length]
      refine Eq.trans ?_ walk
      rw [walkMany, walkMany, walkBurst_load hl hs he check]
    · rw [walkBurst_overrun left (stop.trans on), index, if_pos on]

/-! ### The arbiters -/

theorem lowestBurst_isSome {l : List Burst} (h : l ≠ []) : ∃ b, lowestBurst l = some b := by
  cases l with
  | nil => exact absurd rfl h
  | cons a l =>
    unfold lowestBurst
    split
    · exact ⟨_, rfl⟩
    · split <;> exact ⟨_, rfl⟩

theorem lowestBurst_le {l : List Burst} {b : Burst} (h : lowestBurst l = some b) : ∀ c ∈ l, b.index ≤ c.index := by
  induction l generalizing b with
  | nil => cases h
  | cons a l ih =>
    intro c hc
    cases hl : lowestBurst l with
    | none =>
      have empty : l = [] := by
        by_contra ne
        obtain ⟨e, he⟩ := lowestBurst_isSome ne
        rw [hl] at he
        cases he
      simp only [lowestBurst, hl, Option.some.injEq] at h
      simp only [empty, List.mem_singleton] at hc
      rw [hc, h]
    | some e =>
      have low := ih hl
      simp only [lowestBurst, hl] at h
      split at h
      · cases h
        rcases List.mem_cons.1 hc with rfl | hc
        · exact Nat.le_refl _
        · exact Nat.le_trans ‹_› (low c hc)
      · cases h
        rcases List.mem_cons.1 hc with rfl | hc
        · omega
        · exact low c hc

variable {s : State} {wants : Burst → Bool}

theorem contends_iff {i : SlotId} : s.contends wants i = true ↔ ∃ j b, burstIn s i j b ∧ wants b = true := by
  unfold State.contends burstIn
  cases h : s.slot i <;> simp

/-- Some slot that contends does so at the highest priority of all that do. -/
theorem exists_contendsAtTop {i : SlotId} (h : s.contends wants i = true) : ∃ k, s.contendsAtTop wants k = true := by
  obtain ⟨k, hk, top⟩ := Finset.exists_max_image (Finset.univ.filter fun k => s.contends wants k = true) s.slotPriority
    ⟨i, by simpa using h⟩
  refine ⟨k, ?_⟩
  simp only [State.contendsAtTop, Bool.and_eq_true, List.all_eq_true, List.mem_finRange, true_implies, Bool.or_eq_true,
    Bool.not_eq_true', decide_eq_true_eq]
  refine ⟨by simpa using hk, fun l => ?_⟩
  by_cases hl : s.contends wants l = true
  · exact .inr (top l (by simpa using hl))
  · exact .inl (by simpa using hl)

theorem contendsAtTop_iff {i : SlotId} :
    s.contendsAtTop wants i = true ↔
      s.contends wants i = true ∧ ∀ k, s.contends wants k = true → s.slotPriority k ≤ s.slotPriority i := by
  simp only [State.contendsAtTop, Bool.and_eq_true, List.all_eq_true, List.mem_finRange, true_implies, Bool.or_eq_true,
    Bool.not_eq_true', decide_eq_true_eq]
  refine and_congr_right fun _ => forall_congr' fun k => ?_
  cases s.contends wants k <;> simp

theorem mem_slotsAfter (p i : SlotId) : i ∈ slotsAfter p := by
  revert p i
  decide

/-- The cyclic order visits a slot after every slot that is nearer to the pointer. -/
theorem slotsAfter_eq (p : SlotId) : slotsAfter p = (List.finRange 8).map fun n => p + 1 + n := by
  revert p
  decide

/-- What the cyclic search finds is the first slot after the pointer that passes the test. -/
theorem find_slotsAfter_le {p i k : SlotId} {test : SlotId → Bool} (h : (slotsAfter p).find? test = some i)
    (hk : test k = true) : (i - p - 1).val ≤ (k - p - 1).val := by
  rw [slotsAfter_eq, List.find?_map] at h
  obtain ⟨n, hn, rfl⟩ := Option.map_eq_some_iff.1 h
  have offset : ∀ p m : SlotId, p + 1 + m - p - 1 = m := by decide
  have back : ∀ p k : SlotId, p + 1 + (k - p - 1) = k := by decide
  rw [offset]
  by_contra later
  obtain ⟨-, l, hl, e, before⟩ := List.find?_eq_some_iff_getElem.1 hn
  have place : l = n.val := by simpa using congrArg Fin.val e
  have := before (k - p - 1).val (by omega)
  simp [back, hk] at this

theorem arbitrate_eq_none_iff {p : SlotId} :
    s.arbitrate wants p = none ↔ ∀ i j b, burstIn s i j b → wants b = false := by
  constructor
  · intro none i j b hb
    by_contra waits
    have contends : s.contends wants i = true := contends_iff.2 ⟨j, b, hb, by simpa using waits⟩
    obtain ⟨k, top⟩ := exists_contendsAtTop contends
    obtain ⟨l, found⟩ : ∃ l, (slotsAfter p).find? (s.contendsAtTop wants) = some l := by
      rw [← Option.isSome_iff_exists, List.find?_isSome]
      exact ⟨k, mem_slotsAfter p k, top⟩
    obtain ⟨j, b, ⟨slot, mem⟩, hw⟩ := contends_iff.1 (contendsAtTop_iff.1 (List.find?_some found)).1
    obtain ⟨c, low⟩ := lowestBurst_isSome (l := j.bursts.filter wants) (List.ne_nil_of_mem (List.mem_filter.2 ⟨mem, hw⟩))
    simp [State.arbitrate, found, slot, low] at none
  · intro quiet
    have : (slotsAfter p).find? (s.contendsAtTop wants) = none := by
      refine List.find?_eq_none.2 fun k _ top => ?_
      obtain ⟨j, b, hb, hw⟩ := contends_iff.1 (contendsAtTop_iff.1 top).1
      rw [quiet k j b hb] at hw
      cases hw
    simp [State.arbitrate, this]

/-- The parts of an arbiter's choice: the slot that the cyclic search finds, and the lowest burst that waits there. -/
theorem arbitrate_eq_some {p i : SlotId} {j : Job} {b : Burst} (h : s.arbitrate wants p = some (i, j, b)) :
    (slotsAfter p).find? (s.contendsAtTop wants) = some i ∧ s.slot i = some j ∧
      lowestBurst (j.bursts.filter wants) = some b := by
  unfold State.arbitrate at h
  split at h
  · cases h
  · split at h
    · cases h
    · split at h
      · cases h
      · cases h
        exact ⟨‹_›, ‹_›, ‹_›⟩

/-- Settles O22. -/
theorem arbiterOrder : Obligations.ArbiterOrder := by
  refine ⟨fun s wants p => ⟨arbitrate_eq_none_iff, fun i j b h => ?_⟩, fun s p => ⟨fun a held at_p => ?_, fun away => ?_⟩,
    fun s => rfl⟩
  · obtain ⟨found, slot, low⟩ := arbitrate_eq_some h
    obtain ⟨-, mem, hw⟩ := arbitrate_sound h
    refine ⟨⟨slot, mem⟩, hw, fun c hc hcw => lowestBurst_le low c (List.mem_filter.2 ⟨hc, hcw⟩), fun k l c hl hcw => ?_⟩
    have contends : s.contends wants k = true := contends_iff.2 ⟨l, c, hl, hcw⟩
    obtain ⟨-, top⟩ := contendsAtTop_iff.1 (List.find?_some found)
    have pri : ∀ {n m}, s.slot n = some m → s.slotPriority n = m.command.priority.val := fun hn => by
      simp [State.slotPriority, hn]
    refine ⟨?_, fun same => find_slotsAfter_le found (contendsAtTop_iff.2 ⟨contends, fun n hn => ?_⟩)⟩
    · have := top k contends
      rwa [pri slot, pri hl.1] at this
    · have := top n hn
      rwa [pri slot, ← same, ← pri hl.1] at this
  · simp [State.bankChoice, State.hostWaitsAt, held, at_p]
  · have : s.hostWaitsAt p = false := by
      unfold State.hostWaitsAt
      split
      · rfl
      · simpa using away _ ‹_›
    simp [State.bankChoice, this]

end Sys2Proof.Laws

/-!
PROOFS. Tags, slots and the interlock (chapters 03, 04, 06): the drain of a tag, the grant of a freed slot, the release of an
interlock entry, the issue of a burst.
-/

namespace Sys2Proof.Laws

open Sys2Proof.Machine Sys2Proof.Safety

variable {s u v : State}

/-! ### The drain of a tag -/

/-- What a drain does to a queue depends on that queue and the tags alone. -/
theorem drainQueue_congr (t : TagId) {q : QueueId} (hq : v.queue q = u.queue q) (ht : ∀ x, v.tag x = u.tag x) :
    (v.drainQueue t q).queue q = (u.drainQueue t q).queue q := by
  have satisfied : ∀ mask, v.fenceSatisfied mask = u.fenceSatisfied mask := fun mask => by
    simp only [State.fenceSatisfied, ht]
  have poisoned : ∀ mask, v.fencePoisoned mask = u.fencePoisoned mask := fun mask => by
    simp only [State.fencePoisoned, ht]
  have evaluate : ∀ c, (v.evaluateFence q c).queue q = (u.evaluateFence q c).queue q := fun c => by
    unfold State.evaluateFence State.haltQueue
    rw [satisfied, poisoned]
    split_ifs <;> simp [hq]
  unfold State.drainQueue
  rw [hq]
  split
  · split
    · exact evaluate _
    · exact hq
  · exact hq

theorem foldl_drainQueue_queue (t : TagId) {q : QueueId} {l : List QueueId} (hl : l.Nodup) (hq : q ∈ l) (u : State) :
    (l.foldl (State.drainQueue t) u).queue q = (u.drainQueue t q).queue q := by
  induction l generalizing u with
  | nil => cases hq
  | cons p l ih =>
    obtain ⟨hp, hl⟩ := List.nodup_cons.1 hl
    rw [List.foldl_cons]
    by_cases e : p = q
    · rw [foldl_drainQueue_other t l _ (e ▸ hp), e]
    · rw [ih hl ((List.mem_cons.1 hq).resolve_left (Ne.symm e))]
      exact drainQueue_congr t (drainQueue_other t u e) (drainQueue_tag t u p)

/-- A drain takes each queue for itself. -/
theorem queue_drain (u : State) (t : TagId) (q : QueueId) : (u.drain t).queue q = (u.drainQueue t q).queue q :=
  foldl_drainQueue_queue t (List.nodup_finRange 4) (List.mem_finRange q) u

theorem drainQueue_of_fenced {t : TagId} {q : QueueId} {c : HeldCommand} {cs : List HeldCommand}
    (fenced : (u.queue q).state = .fenced) (head : (u.queue q).commands = c :: cs)
    (named : c.parts.waitMask.getLsbD t = true) : u.drainQueue t q = u.evaluateFence q c := by
  simp only [State.drainQueue, fenced, head, maskNames, named, if_true]

theorem drainQueue_of_other {t : TagId} {q : QueueId}
    (h : (u.queue q).state ≠ .fenced ∨ ∀ c ∈ (u.queue q).commands.head?, c.parts.waitMask.getLsbD t = false) :
    u.drainQueue t q = u := by
  unfold State.drainQueue
  split
  · rename_i c _ fenced head
    rcases h with h | h
    · exact absurd fenced h
    · have := h c (by rw [head]; rfl)
      rw [maskNames, this]
      rfl
  · rfl

theorem foldl_drainQueue_halts (t : TagId) {q : QueueId} {c : HeldCommand} {cs : List HeldCommand} {l : List QueueId}
    (hq : q ∈ l) (u : State) (fenced : (u.queue q).state = .fenced) (head : (u.queue q).commands = c :: cs)
    (named : c.parts.waitMask.getLsbD t = true)
    (clear : ∀ x : TagId, c.parts.waitMask.getLsbD x = true → (u.tag x).count = 0)
    (bad : c.parts.flag = true ∧ ∃ x : TagId, c.parts.waitMask.getLsbD x = true ∧ (u.tag x).poison = true) :
    (l.foldl (State.drainQueue t) u).interrupts.halt = true := by
  induction l generalizing u with
  | nil => cases hq
  | cons p l ih =>
    rw [List.foldl_cons]
    by_cases e : p = q
    · subst e
      refine foldl_drainQueue_halt_cause t l _ ?_
      rw [drainQueue_of_fenced fenced head named, evaluateFence_halts p clear bad]
      rfl
    · refine ih ((List.mem_cons.1 hq).resolve_left (Ne.symm e)) _ ?_ ?_ ?_ ?_
      · rw [drainQueue_other t u e]
        exact fenced
      · rw [drainQueue_other t u e]
        exact head
      · simpa only [drainQueue_tag] using clear
      · simpa only [drainQueue_tag] using bad

/-- Settles O15. -/
theorem releaseTagDrains : Obligations.ReleaseTagDrains := by
  intro s t bad u hu
  have same : ∀ q, s.queue q = u.queue q := fun q => by rw [hu]; rfl
  refine ⟨fun many => by rw [State.releaseTag, hu]; exact if_neg many, fun one => ?_⟩
  have drains : s.releaseTag t bad = u.drain t := by
    rw [State.releaseTag, hu]
    exact if_pos one
  simp only [drains, queue_drain, same]
  refine ⟨foldl_drainQueue_tag t _ _, fun q other => by rw [drainQueue_of_other other],
    fun q c cs fenced head named => ?_⟩
  rw [drainQueue_of_fenced fenced head named]
  refine ⟨fun busy => ?_, fun clear => ⟨fun bad => ⟨?_, ?_⟩, fun clean => ?_⟩⟩
  · rw [evaluateFence_waits q busy, queue_modQueue_self, withState_self fenced]
  · rw [evaluateFence_halts q clear bad]
    simp [State.haltQueue]
  · exact foldl_drainQueue_halts t (List.mem_finRange q) _ fenced head named clear bad
  · rw [evaluateFence_passes q clear clean, queue_modQueue_self, Queue.pop, Queue.withState, head, List.tail_cons]

/-! ### The grant of a slot -/

theorem slotWaiter_of_not_stalled {q : QueueId} (h : (s.queue q).state ≠ .stalledSlot) : s.slotWaiter q = none := by
  unfold State.slotWaiter
  split
  · exact absurd ‹_› h
  · rfl

theorem slotWaiter_of_stalled {q : QueueId} {c : HeldCommand} {cs : List HeldCommand} {j : JobCommand}
    (stalled : (s.queue q).state = .stalledSlot) (head : (s.queue q).commands = c :: cs) (job : c.parts.job = some j) :
    s.slotWaiter q = some (q, c.seq, j) := by
  simp only [State.slotWaiter, stalled, head, job]

theorem queuesAfter_eq (p : QueueId) : queuesAfter p = (List.finRange 4).map fun n => p + 1 + n := by
  revert p
  decide

/-- A search for the first value over a finite range. -/
theorem findSome_first {α : Type} {n : Nat} {f : Fin n → Option α} {i : Fin n} {x : α} (hi : f i = some x)
    (hk : ∀ k, k < i → f k = none) : (List.finRange n).findSome? f = some x := by
  obtain ⟨-, l, m, split, before⟩ := List.find?_eq_some_iff_append.1
    (find_first (p := fun k => (f k).isSome) (i := i) (by simp [hi]) fun k hki => by simp [hk k hki])
  exact List.findSome?_eq_some_iff.2 ⟨l, i, m, split, hi, fun k hkl => by simpa using before k hkl⟩

/-- The first queue in the cyclic order that waits is granted the slot. -/
theorem grantSlot_eq {i : SlotId} {n : Fin 4} {x : QueueId × BitVec 16 × JobCommand}
    (before : ∀ m, m < n → s.slotWaiter (s.slotPointer + 1 + m) = none)
    (waits : s.slotWaiter (s.slotPointer + 1 + n) = some x) :
    s.grantSlot i = { s.enterSlot i x.1 x.2.1 x.2.2 with slotPointer := x.1 } := by
  have found : (queuesAfter s.slotPointer).findSome? s.slotWaiter = some x := by
    rw [queuesAfter_eq, List.findSome?_map]
    exact findSome_first waits before
  simp only [State.grantSlot, found]

/-! What entering a slot changes: the slot, the queue and the tag. -/

section Enter

variable (s) (i : SlotId) (q : QueueId) (seq : BitVec 16) (c : JobCommand)

theorem slot_enterSlot (k : SlotId) :
    (s.enterSlot i q seq c).slot k = if i = k then some (Job.enter q seq c) else s.slot k := by
  unfold State.enterSlot
  cases c.tag <;> exact slot_setSlot s i k _

theorem queue_enterSlot (r : QueueId) :
    (s.enterSlot i q seq c).queue r =
      if q = r then { (s.queue r).pop.withState .running with jobs := (s.queue r).jobs + 1 } else s.queue r := by
  have u : ∀ v : State, v.queue r = s.queue r →
      (v.modQueue q fun x => { x.pop.withState .running with jobs := x.jobs + 1 }).queue r =
        if q = r then { (s.queue r).pop.withState .running with jobs := (s.queue r).jobs + 1 } else s.queue r :=
    fun v hv => by
      rw [queue_modQueue, hv]
      split
      · subst_vars
        rw [hv]
      · rfl
  unfold State.enterSlot
  cases c.tag with
  | none => exact u (s.setSlot i _) rfl
  | some t => exact u (s.setSlot i _) rfl

theorem tag_enterSlot (g : TagId) :
    (s.enterSlot i q seq c).tag g =
      if c.tag = some g then { s.tag g with count := (s.tag g).count + 1 } else s.tag g := by
  unfold State.enterSlot
  cases h : c.tag with
  | none => rfl
  | some t =>
    simp only [Option.some.injEq]
    rw [tag_setTag]
    split
    · subst_vars
      rfl
    · rfl

@[simp] theorem enterSlot_completion : (s.enterSlot i q seq c).completion = s.completion := by
  unfold State.enterSlot
  cases c.tag <;> rfl

@[simp] theorem enterSlot_interlock : (s.enterSlot i q seq c).interlock = s.interlock := by
  unfold State.enterSlot
  cases c.tag <;> rfl

@[simp] theorem enterSlot_interrupts : (s.enterSlot i q seq c).interrupts = s.interrupts := by
  unfold State.enterSlot
  cases c.tag <;> rfl

end Enter

/-- Settles O17. -/
theorem slotGrantRoundRobin : Obligations.SlotGrantRoundRobin := by
  refine fun s i => ⟨fun none => grantSlot_of_noneStalled none i, fun n c cs j before stalled head job => ?_⟩
  refine ⟨_, grantSlot_eq (fun m hm => slotWaiter_of_not_stalled (before m hm)) (slotWaiter_of_stalled stalled head job),
    rfl, ?_, fun k hk => ?_, ?_, fun r hr => ?_, fun g => tag_enterSlot s i _ _ j g⟩
  · exact (slot_enterSlot s i _ _ j i).trans (if_pos rfl)
  · exact (slot_enterSlot s i _ _ j k).trans (if_neg (Ne.symm hk))
  · refine (queue_enterSlot s i _ _ j _).trans ((if_pos rfl).trans ?_)
    rw [Queue.pop, Queue.withState, head, List.tail_cons]
  · exact (queue_enterSlot s i _ _ j r).trans (if_neg (Ne.symm hr))

/-! ### The release of an interlock entry -/

theorem ownedBy_iff (e : LockRequest) (i : SlotId) (n : Nat) : e.ownedBy i n = true ↔ e.slot = i ∧ e.burst = n := by
  simp [LockRequest.ownedBy]

/-- Where one entry is removed, every key of the table is the removed one or still held. -/
theorem key_of_removed {l : List LockRequest} {p : LockRequest → Bool} (one : (l.filter fun e => !p e).length + 1 = l.length) :
    ∃ r ∈ l, ∀ e ∈ l, e = r ∨ e ∈ l.filter fun e => !p e := by
  have count : (l.filter p).length = 1 := by
    have := List.length_eq_length_filter_add (l := l) p
    omega
  obtain ⟨r, hr⟩ := List.length_eq_one_iff.1 count
  refine ⟨r, (List.mem_filter.1 (hr ▸ List.mem_singleton_self r : r ∈ l.filter p)).1, fun e he => ?_⟩
  by_cases hp : p e = true
  · exact .inl (List.mem_singleton.1 (hr ▸ List.mem_filter.2 ⟨he, hp⟩))
  · exact .inr (List.mem_filter.2 ⟨he, by simpa using hp⟩)

theorem filter_ne_of_nodup {before after : List LockRequest} {w : LockRequest} (nodup : (before ++ w :: after).Nodup) :
    (before ++ w :: after).filter (· ≠ w) = before ++ after := by
  obtain ⟨-, hw, disjoint⟩ := List.nodup_append.1 nodup
  have keep : ∀ l : List LockRequest, w ∉ l → l.filter (· ≠ w) = l := fun l hl =>
    List.filter_eq_self.2 fun x hx => by simpa using fun e : x = w => hl (e ▸ hx)
  rw [List.filter_append, keep before fun h => disjoint w h w List.mem_cons_self rfl, List.filter_cons_of_neg (by simp),
    keep after (List.nodup_cons.1 hw).1]

/-- Settles O29: the entry removed is the only key that can have come free, so one grant blocks every later waiter. -/
theorem releaseGrantsOldestEligible : Obligations.ReleaseGrantsOldestEligible := by
  intro s i n table sound nodup ht hlen
  have filtered : s.interlock.table.filter (fun e => !e.ownedBy i n) = table := by
    rw [ht]
    refine List.filter_congr fun e _ => ?_
    rw [Bool.eq_iff_iff]
    simp [LockRequest.ownedBy]
  have holds : s.holdsEntry i n = true := by
    by_contra none
    have : s.interlock.table.filter (fun e => !e.ownedBy i n) = s.interlock.table :=
      List.filter_eq_self.2 fun e he => by simpa using fun owned => none (List.any_eq_true.2 ⟨e, he, owned⟩)
    rw [filtered] at this
    rw [this] at hlen
    omega
  have release : s.releaseEntry i n =
      s.interlock.waiters.foldl State.scanWaiter (s.setInterlock { s.interlock with table := table }) := by
    rw [State.releaseEntry, if_pos holds, filtered]
    rfl
  obtain ⟨r, hr, removed⟩ := key_of_removed (l := s.interlock.table) (p := fun e => e.ownedBy i n) (by rw [filtered, hlen])
  rw [filtered] at removed
  have blocked : ∀ {l : Interlock} {k : Place}, (∃ e ∈ l.table, e.key = k) → l.grants k = false := fun h =>
    grants_of_held ((held_iff _ _).2 h)
  refine ⟨fun all => ?_, fun before w after hw hbefore free => ?_⟩
  · rw [release]
    exact scan_of_blocked _ _ fun x hx => blocked (all x hx)
  · have room : table.length < Config.lockEntries := by
      have := sound.1.1
      omega
    have grant : (s.setInterlock { s.interlock with table := table }).interlock.grants w.key = true := by
      have : (⟨table, s.interlock.waiters⟩ : Interlock).held w.key = false := by
        rw [← Bool.not_eq_true, held_iff]
        rintro ⟨e, he, hk⟩
        exact free e he hk
      simp [Interlock.grants, this, room]
    rw [release, hw, List.foldl_append, List.foldl_cons, scan_of_blocked _ _ fun x hx => blocked (hbefore x hx)]
    rw [State.scanWaiter, if_pos grant]
    have left : s.interlock.waiters.filter (· ≠ w) = before ++ after := by
      rw [hw]
      exact filter_ne_of_nodup (hw ▸ nodup)
    simp only [setInterlock_interlock, left]
    refine scan_of_blocked _ _ fun x hx => ?_
    rw [modJob_interlock, setInterlock_interlock]
    have full : s.interlock.table.length = 16 → (⟨table ++ [w], before ++ after⟩ : Interlock).grants x.key = false :=
      fun full => grants_of_full (by
        rw [List.length_append, List.length_singleton]
        omega)
    rcases sound.2 x (hw ▸ List.mem_append_right _ (List.mem_cons_of_mem _ hx)) with xheld | all
    · rcases sound.2 w (hw ▸ List.mem_append_right _ List.mem_cons_self) with wheld | all
      · obtain ⟨e, he, hk⟩ := (held_iff _ _).1 xheld
        obtain ⟨d, hd, hdk⟩ := (held_iff _ _).1 wheld
        refine blocked (l := ⟨table ++ [w], before ++ after⟩) ?_
        rcases removed e he with rfl | inside
        · rcases removed d hd with rfl | inside
          · exact ⟨w, List.mem_append_right _ (List.mem_singleton_self w), hdk.symm.trans hk⟩
          · exact absurd hdk (free d inside)
        · exact ⟨e, List.mem_append_left _ inside, hk⟩
      · exact full all
    · exact full all

end Sys2Proof.Laws

/-!
PROOFS. ENDING applied to the bursts of a job (R64, R65, R81 to R83): what the scans of the lock wait list grant, which
bursts stay in flight, the first fault and the cancel of a job.
-/

namespace Sys2Proof.Laws

open Sys2Proof.Machine Sys2Proof.Safety

variable {s t u : State} {i k : SlotId} {j : Job}

/-! ### Nothing but slots and interlock -/

/-- Nothing changes but the slots and the interlock. -/
structure SlotsAndLocks (s t : State) : Prop extends OutsideTable s t where
  queues : t.queues = s.queues
  slotPointer : t.slotPointer = s.slotPointer
  tags : t.tags = s.tags
  completion : t.completion = s.completion
  interrupts : t.interrupts = s.interrupts

theorem SlotsAndLocks.refl (s : State) : SlotsAndLocks s s := ⟨OutsideTable.refl s, rfl, rfl, rfl, rfl, rfl⟩

theorem SlotsAndLocks.trans (h : SlotsAndLocks s t) (k : SlotsAndLocks t u) : SlotsAndLocks s u :=
  ⟨h.toOutsideTable.trans k.toOutsideTable, k.queues.trans h.queues, k.slotPointer.trans h.slotPointer,
    k.tags.trans h.tags, k.completion.trans h.completion, k.interrupts.trans h.interrupts⟩

theorem SlotsAndLocks.queue (h : SlotsAndLocks s t) (q : QueueId) : t.queue q = s.queue q := by
  rw [State.queue, h.queues]
  rfl

theorem SlotsAndLocks.tag (h : SlotsAndLocks s t) (g : TagId) : t.tag g = s.tag g := by
  rw [State.tag, h.tags]
  rfl

theorem slotsAndLocks_setSlot (s : State) (i : SlotId) (x : Option Job) : SlotsAndLocks s (s.setSlot i x) :=
  ⟨outside_setSlot s i x, rfl, rfl, rfl, rfl, rfl⟩

theorem slotsAndLocks_setInterlock (s : State) (x : Interlock) : SlotsAndLocks s (s.setInterlock x) :=
  ⟨outside_setInterlock s x, rfl, rfl, rfl, rfl, rfl⟩

theorem slotsAndLocks_modJob (s : State) (i : SlotId) (f : Job → Job) : SlotsAndLocks s (s.modJob i f) :=
  ⟨outside_modJob s i f, modJob_queues s i f, modJob_slotPointer s i f, modJob_tags s i f, modJob_completion s i f,
    modJob_interrupts s i f⟩

theorem slotsAndLocks_scanWaiter (s : State) (w : LockRequest) : SlotsAndLocks s (s.scanWaiter w) := by
  unfold State.scanWaiter
  split
  · exact (slotsAndLocks_setInterlock s _).trans (slotsAndLocks_modJob _ _ _)
  · exact .refl s

theorem slotsAndLocks_foldl {α : Type} (f : State → α → State) (h : ∀ s a, SlotsAndLocks s (f s a)) (l : List α)
    (s : State) : SlotsAndLocks s (l.foldl f s) := by
  induction l generalizing s with
  | nil => exact .refl s
  | cons a l ih => exact (h s a).trans (ih _)

theorem slotsAndLocks_releaseEntry (s : State) (i : SlotId) (n : Nat) : SlotsAndLocks s (s.releaseEntry i n) := by
  unfold State.releaseEntry
  split
  · exact (slotsAndLocks_setInterlock s _).trans (slotsAndLocks_foldl _ slotsAndLocks_scanWaiter _ _)
  · exact .refl s

theorem slotsAndLocks_removeBurst (s : State) (i : SlotId) (n : Nat) : SlotsAndLocks s (s.removeBurst i n) :=
  (slotsAndLocks_modJob s i _).trans (slotsAndLocks_releaseEntry _ i n)

theorem slotsAndLocks_applyEnding (s : State) (i : SlotId) (j : Job) : SlotsAndLocks s (s.applyEnding i j) :=
  ((slotsAndLocks_setSlot s i _).trans (slotsAndLocks_setInterlock _ _)).trans
    (slotsAndLocks_foldl _ (fun t (b : Burst) => slotsAndLocks_removeBurst t i b.index) _ _)

/-! ### What a scan grants -/

/-- The second slot holds the first's job, in which some bursts in LOCK_WAIT may have entered READING. -/
def Granted (x y : Option Job) : Prop :=
  (x = none → y = none) ∧ ∀ j, x = some j → ∃ f : Burst → Burst,
    (∀ b, f b = b ∨ b.state = .lockWait ∧ f b = b.startReading j.command.work.readsOldDestination) ∧
      y = some { j with bursts := j.bursts.map f }

theorem Granted.refl (x : Option Job) : Granted x x :=
  ⟨id, fun j h => ⟨id, fun _ => .inl rfl, by rw [h, List.map_id]⟩⟩

theorem Granted.trans {x y z : Option Job} (h : Granted x y) (k : Granted y z) : Granted x z := by
  refine ⟨fun hx => k.1 (h.1 hx), fun j hj => ?_⟩
  obtain ⟨f, hf, hy⟩ := h.2 j hj
  obtain ⟨g, hg, hz⟩ := k.2 _ hy
  refine ⟨g ∘ f, fun b => ?_, by rw [hz, List.map_map]⟩
  rcases hf b with e | ⟨wait, e⟩
  · rw [Function.comp_apply, e]
    exact hg b
  · rcases hg (f b) with e' | ⟨wait', -⟩
    · exact .inr ⟨wait, e'.trans e⟩
    · rw [e] at wait'
      cases wait'

/-- A job without bursts in LOCK_WAIT is as it was. -/
theorem Granted.same {y : Option Job} (h : Granted (some j) y) (none : ∀ b ∈ j.bursts, b.state ≠ .lockWait) :
    y = some j := by
  obtain ⟨f, hf, hy⟩ := h.2 j rfl
  have : j.bursts.map f = j.bursts :=
    (List.map_congr_left fun b hb => (hf b).resolve_right fun wait => none b hb wait.1).trans (List.map_id' _)
  rw [hy, this]

theorem Granted.outline {x y : Option Job} (h : Granted x y) : y.map Job.outline = x.map Job.outline := by
  cases x with
  | none => rw [h.1 rfl]
  | some j =>
    obtain ⟨f, -, hy⟩ := h.2 j rfl
    rw [hy]
    rfl

theorem granted_startReading (s : State) (i k : SlotId) (n : Nat) :
    Granted (s.slot k) ((s.modJob i fun j => j.startReading n).slot k) := by
  rw [slot_modJob]
  split
  · refine ⟨fun h => by rw [h]; rfl, fun j hj => ⟨_, fun b => ?_, by rw [hj]; rfl⟩⟩
    split
    · rename_i h
      exact .inr ⟨h.2, rfl⟩
    · exact .inl rfl
  · exact .refl _

theorem granted_scanWaiter (s : State) (w : LockRequest) (k : SlotId) : Granted (s.slot k) ((s.scanWaiter w).slot k) := by
  unfold State.scanWaiter
  split
  · have := granted_startReading
      (s.setInterlock { table := s.interlock.table ++ [w], waiters := s.interlock.waiters.filter (· ≠ w) }) w.slot k w.burst
    exact this
  · exact .refl _

theorem granted_scan (l : List LockRequest) (s : State) (k : SlotId) :
    Granted (s.slot k) ((l.foldl State.scanWaiter s).slot k) := by
  induction l generalizing s with
  | nil => exact .refl _
  | cons w l ih => exact (granted_scanWaiter s w k).trans (ih _)

theorem granted_releaseEntry (s : State) (i : SlotId) (n : Nat) (k : SlotId) :
    Granted (s.slot k) ((s.releaseEntry i n).slot k) := by
  unfold State.releaseEntry
  split
  · have := granted_scan s.interlock.waiters
      (s.setInterlock { s.interlock with table := s.interlock.table.filter fun e => !e.ownedBy i n }) k
    exact this
  · exact .refl _

theorem granted_removeBurst (s : State) (n : Nat) (h : k ≠ i) : Granted (s.slot k) ((s.removeBurst i n).slot k) := by
  have := granted_releaseEntry (s.modJob i fun j => { j with bursts := j.bursts.filter fun b => b.index ≠ n }) i n k
  rwa [slot_modJob_ne _ _ _ _ (Ne.symm h)] at this

theorem waiters_scanWaiter (s : State) (w : LockRequest) :
    ∀ x ∈ (s.scanWaiter w).interlock.waiters, x ∈ s.interlock.waiters := by
  unfold State.scanWaiter
  split
  · rw [modJob_interlock]
    exact fun x hx => (List.mem_filter.1 hx).1
  · exact fun x => id

theorem waiters_releaseEntry (s : State) (i : SlotId) (n : Nat) :
    ∀ x ∈ (s.releaseEntry i n).interlock.waiters, x ∈ s.interlock.waiters := by
  have scan : ∀ (l : List LockRequest) (u : State), ∀ x ∈ (l.foldl State.scanWaiter u).interlock.waiters,
      x ∈ u.interlock.waiters := by
    intro l
    induction l with
    | nil => exact fun u x => id
    | cons w l ih => exact fun u x hx => waiters_scanWaiter u w x (ih _ x hx)
  unfold State.releaseEntry
  split
  · exact scan _ _
  · exact fun x => id

theorem waiters_removeBurst (s : State) (i : SlotId) (n : Nat) :
    ∀ x ∈ (s.removeBurst i n).interlock.waiters, x ∈ s.interlock.waiters := by
  have := waiters_releaseEntry (s.modJob i fun j => { j with bursts := j.bursts.filter fun b => b.index ≠ n }) i n
  rwa [modJob_interlock] at this

/-! ### ENDING applied to the bursts of a job -/

/-- The bursts of a job in ENDING before any is removed: those not in LOCK_WAIT, without their waiting reads (R65). -/
def withdrawn (l : List Burst) : List Burst := (l.filter fun b => b.state ≠ .lockWait).map Burst.withdraw

theorem state_withdraw (b : Burst) : b.withdraw.state = b.state := by
  unfold Burst.withdraw
  split <;> simp_all

theorem index_withdraw (b : Burst) : b.withdraw.index = b.index := by
  unfold Burst.withdraw
  split <;> rfl

theorem withdrawn_not_lockWait {l : List Burst} : ∀ b ∈ withdrawn l, b.state ≠ .lockWait := by
  intro b hb
  obtain ⟨c, hc, rfl⟩ := List.mem_map.1 hb
  rw [state_withdraw]
  simpa using (List.mem_filter.1 hc).2

theorem withdrawn_pairwise {l : List Burst} (h : l.Pairwise fun b c => b.index < c.index) :
    (withdrawn l).Pairwise fun b c => b.index < c.index := by
  refine List.pairwise_map.2 ?_
  simp only [index_withdraw]
  exact h.filter _

theorem awaitsRead_withdraw {b : Burst} (h : b.state = .reading) : b.withdraw.awaitsRead = b.awaitsRead := by
  have : ∀ r : ReadRequest, (!r.isWaiting && r.isSent) = r.isSent := fun r => by
    unfold ReadRequest.isWaiting ReadRequest.isSent
    cases r.stage <;> rfl
  simp only [Burst.withdraw, h, Burst.awaitsRead, List.any_filter, this]

theorem endsAtEnding_withdraw (b : Burst) (h : b.state ≠ .lockWait) :
    (!b.withdraw.endsAtEnding) = staysInFlight b := by
  unfold Burst.endsAtEnding staysInFlight
  rw [state_withdraw]
  cases e : b.state with
  | lockWait => exact absurd e h
  | reading =>
    have := awaitsRead_withdraw e
    unfold Burst.awaitsRead at this
    simp [Burst.awaitsRead, this]
  | writing => simp [Burst.withdraw, e]

/-- The withdrawn bursts that do not end are those that the statement names. -/
theorem withdrawn_stay (l : List Burst) : ((withdrawn l).filter fun b => !b.endsAtEnding) = burstsAtEnding l := by
  unfold withdrawn burstsAtEnding
  rw [List.filter_map, List.filter_filter]
  have keep : (l.filter fun b => ((fun b : Burst => !b.endsAtEnding) ∘ Burst.withdraw) b && decide (b.state ≠ .lockWait)) =
      l.filter staysInFlight := by
    refine List.filter_congr fun b _ => ?_
    by_cases h : b.state = .lockWait
    · simp [h, staysInFlight]
    · simp [h, endsAtEnding_withdraw b h]
  rw [keep]
  refine List.map_congr_left fun b _ => ?_
  unfold Burst.withdraw
  split
  · rename_i h
    rw [if_pos h]
  · rename_i h
    rw [if_neg (by simp [h])]
  · rename_i h
    rw [if_neg (by simp [h])]

theorem slot_removeBurst (h : s.slot i = some j) (n : Nat) (none : ∀ b ∈ j.bursts, b.state ≠ .lockWait) :
    (s.removeBurst i n).slot i = some { j with bursts := j.bursts.filter fun b => b.index ≠ n } := by
  have := granted_releaseEntry (s.modJob i fun j => { j with bursts := j.bursts.filter fun b => b.index ≠ n }) i n i
  rw [slot_modJob_self, h] at this
  exact this.same fun b hb => none b (List.mem_filter.1 hb).1

theorem slot_removeBursts (l : List Burst) (h : s.slot i = some j) (none : ∀ b ∈ j.bursts, b.state ≠ .lockWait) :
    (l.foldl (fun t b => t.removeBurst i b.index) s).slot i =
      some { j with bursts := j.bursts.filter fun b => l.all fun c => b.index ≠ c.index } := by
  induction l generalizing s j with
  | nil => simpa using h
  | cons c l ih =>
    rw [List.foldl_cons, ih (slot_removeBurst h c.index none) fun b hb => none b (List.mem_filter.1 hb).1]
    simp only [List.filter_filter, List.all_cons, Bool.and_comm]

theorem eq_of_index {l : List Burst} (h : l.Pairwise fun b c => b.index < c.index) {b c : Burst} (hb : b ∈ l)
    (hc : c ∈ l) (e : b.index = c.index) : b = c := by
  obtain ⟨m, hm, rfl⟩ := List.getElem_of_mem hb
  obtain ⟨n, hn, rfl⟩ := List.getElem_of_mem hc
  have rising := List.pairwise_iff_getElem.1 h
  rcases Nat.lt_trichotomy m n with lt | rfl | lt
  · exact absurd e (Nat.ne_of_lt (rising m n hm hn lt))
  · rfl
  · exact absurd e (Nat.ne_of_gt (rising n m hn hm lt))

/-- Where indices are distinct, a burst is none of those that satisfy a test exactly when it does not satisfy it. -/
theorem filter_all_ne {l : List Burst} (h : l.Pairwise fun b c => b.index < c.index) (p : Burst → Bool) :
    (l.filter fun b => (l.filter p).all fun c => decide (b.index ≠ c.index)) = l.filter fun b => !p b := by
  refine List.filter_congr fun b hb => ?_
  rw [Bool.eq_iff_iff]
  simp only [List.all_eq_true, List.mem_filter, decide_eq_true_eq, Bool.not_eq_true']
  refine ⟨fun all => ?_, fun hp c hc e => ?_⟩
  · by_contra hp
    exact all b ⟨hb, by simpa using hp⟩ rfl
  · rw [eq_of_index h hb hc.1 e, hc.2] at hp
    cases hp

/-- ENDING leaves the bursts that stay in flight. -/
theorem slot_applyEnding (s : State) (i : SlotId) (h : j.bursts.Pairwise fun b c => b.index < c.index) :
    (s.applyEnding i j).slot i = some { j with state := .ending, bursts := burstsAtEnding j.bursts } := by
  have kept := slot_removeBursts ((withdrawn j.bursts).filter Burst.endsAtEnding)
    (s := (s.setSlot i (some { j with state := .ending, bursts := withdrawn j.bursts })).setInterlock
      { s.interlock with waiters := s.interlock.waiters.filter fun w => w.slot ≠ i })
    (slot_setSlot_self s i _) withdrawn_not_lockWait
  rw [filter_all_ne (withdrawn_pairwise h), withdrawn_stay] at kept
  exact kept

theorem granted_removeBursts (l : List Burst) (s : State) (h : k ≠ i) :
    Granted (s.slot k) ((l.foldl (fun t b => t.removeBurst i b.index) s).slot k) := by
  induction l generalizing s with
  | nil => exact .refl _
  | cons c l ih => exact (granted_removeBurst s c.index h).trans (ih _)

theorem waiters_removeBursts (l : List Burst) (s : State) (i : SlotId) :
    ∀ w ∈ (l.foldl (fun t b => t.removeBurst i b.index) s).interlock.waiters, w ∈ s.interlock.waiters := by
  induction l generalizing s with
  | nil => exact fun w => id
  | cons c l ih => exact fun w hw => waiters_removeBurst s i c.index w (ih _ w hw)

theorem granted_applyEnding (s : State) (j : Job) (h : k ≠ i) : Granted (s.slot k) ((s.applyEnding i j).slot k) := by
  have := granted_removeBursts (k := k) ((withdrawn j.bursts).filter Burst.endsAtEnding)
    ((s.setSlot i (some { j with state := .ending, bursts := withdrawn j.bursts })).setInterlock
      { s.interlock with waiters := s.interlock.waiters.filter fun w => w.slot ≠ i }) h
  rw [slot_setInterlock, slot_setSlot_ne _ _ _ _ (Ne.symm h)] at this
  exact this

/-- No burst of a job in ENDING waits for a lock. -/
theorem waiters_applyEnding (s : State) (i : SlotId) (j : Job) :
    ∀ w ∈ (s.applyEnding i j).interlock.waiters, w ∈ s.interlock.waiters ∧ w.slot ≠ i := by
  intro w hw
  have := waiters_removeBursts ((withdrawn j.bursts).filter Burst.endsAtEnding)
    ((s.setSlot i (some { j with state := .ending, bursts := withdrawn j.bursts })).setInterlock
      { s.interlock with waiters := s.interlock.waiters.filter fun w => w.slot ≠ i }) i w hw
  rw [setInterlock_interlock] at this
  simpa using List.mem_filter.1 this

/-! ### A queue that a finish only counts for -/

theorem slotWaiter_eq_some {q : QueueId} {x : QueueId × BitVec 16 × JobCommand} (h : s.slotWaiter q = some x) :
    ∃ c cs j, (s.queue q).state = .stalledSlot ∧ (s.queue q).commands = c :: cs ∧ c.parts.job = some j ∧
      x = (q, c.seq, j) := by
  unfold State.slotWaiter at h
  split at h
  · rename_i c cs stalled head
    split at h
    · rename_i j job
      cases h
      exact ⟨c, cs, j, stalled, head, job, rfl⟩
    · cases h
  · cases h

/-- A grant changes nothing, since no queue waits, or the job at the head of a queue that waits enters the slot. -/
theorem grantSlot_cases (s : State) (i : SlotId) :
    ((∀ q, s.slotWaiter q = none) ∧ s.grantSlot i = s) ∨
      ∃ q c cs j, (s.queue q).state = .stalledSlot ∧ (s.queue q).commands = c :: cs ∧ c.parts.job = some j ∧
        s.grantSlot i = { s.enterSlot i q c.seq j with slotPointer := q } := by
  unfold State.grantSlot
  split
  · rename_i none
    refine .inl ⟨fun q => List.findSome?_eq_none_iff.1 none q ?_, rfl⟩
    have : ∀ p q : QueueId, q ∈ queuesAfter p := by decide
    exact this _ q
  · rename_i found
    obtain ⟨q, -, waits⟩ := List.exists_of_findSome?_eq_some found
    obtain ⟨c, cs, j, stalled, head, job, e⟩ := slotWaiter_eq_some waits
    obtain ⟨rfl, rfl, rfl⟩ : _ = q ∧ _ = c.seq ∧ _ = j := by simpa using e
    exact .inr ⟨_, c, cs, _, stalled, head, job, rfl⟩

/-- A queue that no finish moves: it is not FENCED, STALLED(SLOT) or ABORTING. -/
def Resting (x : Queue) : Prop := x.state ≠ .fenced ∧ x.state ≠ .stalledSlot ∧ x.state ≠ .aborting

variable {q : QueueId}

theorem queue_releaseTag_resting (h : Resting (s.queue q)) (g : TagId) (bad : Bool) :
    (s.releaseTag g bad).queue q = s.queue q := by
  unfold State.releaseTag
  split
  · refine (queue_drain _ g q).trans ?_
    rw [drainQueue_of_other (t := g) (.inl (show ((s.setTag g _).queue q).state ≠ .fenced from h.1))]
    rfl
  · rfl

theorem queue_grantSlot_resting (h : Resting (s.queue q)) (i : SlotId) : (s.grantSlot i).queue q = s.queue q := by
  rcases grantSlot_cases s i with ⟨-, e⟩ | ⟨r, c, cs, j, stalled, -, -, e⟩
  · rw [e]
  · have ne : r ≠ q := fun e => h.2.1 (e ▸ stalled)
    rw [e]
    exact (queue_enterSlot s i r c.seq j q).trans (if_neg ne)

theorem jobFreed_of_not_aborting {x : Queue} (h : x.state ≠ .aborting) : x.jobFreed = { x with jobs := x.jobs - 1 } :=
  if_neg fun a => h a.1

theorem queue_freeSlot_resting (h : Resting (s.queue q)) (i : SlotId) :
    ∃ n, (s.freeSlot i).queue q = { s.queue q with jobs := n } := by
  unfold State.freeSlot
  split
  · exact ⟨_, rfl⟩
  · rename_i j _
    extract_lets u v
    have hv : v.queue q = s.queue q := by
      unfold v
      split
      · rfl
      · exact queue_releaseTag_resting (s := u) h _ _
    have hr : ∃ n, (v.modQueue j.queue Queue.jobFreed).queue q = { s.queue q with jobs := n } := by
      rw [queue_modQueue]
      split
      · subst_vars
        rw [hv, jobFreed_of_not_aborting h.2.2]
        exact ⟨_, rfl⟩
      · exact ⟨_, hv⟩
    obtain ⟨n, hn⟩ := hr
    exact ⟨n, (queue_grantSlot_resting (by rw [hn]; exact h) i).trans hn⟩

theorem queue_finishJob_resting (h : Resting (s.queue q)) (i : SlotId) (j : Job) :
    ∃ n, (s.finishJob i j).queue q = { s.queue q with jobs := n } := by
  unfold State.finishJob
  dsimp only
  split
  · split
    · exact queue_freeSlot_resting (s := (s.setSlot i _).post _) h i
    · exact ⟨_, rfl⟩
  · exact queue_freeSlot_resting (s := s.setSlot i _) h i

theorem halt_releaseTag (h : s.interrupts.halt = true) (g : TagId) (bad : Bool) :
    (s.releaseTag g bad).interrupts.halt = true := by
  unfold State.releaseTag
  split
  · exact foldl_drainQueue_halt_cause g _ _ h
  · exact h

theorem halt_grantSlot (s : State) (i : SlotId) : (s.grantSlot i).interrupts = s.interrupts := by
  rcases grantSlot_cases s i with ⟨-, e⟩ | ⟨r, c, cs, j, -, -, -, e⟩
  · rw [e]
  · rw [e]
    exact enterSlot_interrupts s i r c.seq j

theorem halt_freeSlot (h : s.interrupts.halt = true) (i : SlotId) : (s.freeSlot i).interrupts.halt = true := by
  unfold State.freeSlot
  split
  · exact h
  · extract_lets u v
    rw [halt_grantSlot]
    show v.interrupts.halt = true
    unfold v
    split
    · exact h
    · exact halt_releaseTag (s := u) h _ _

theorem halt_finishJob (h : s.interrupts.halt = true) (i : SlotId) (j : Job) :
    (s.finishJob i j).interrupts.halt = true := by
  unfold State.finishJob
  dsimp only
  split
  · split
    · exact halt_freeSlot (s := (s.setSlot i _).post _) h i
    · exact h
  · exact halt_freeSlot (s := s.setSlot i _) h i

/-! ### The first fault -/

theorem elsewhereKept_of_outside (h : OutsideTable s t) : ElsewhereKept s t :=
  ⟨h.pending, h.resetPin, h.host, h.memory, h.segments, h.view, h.mask, h.threshold, h.stray⟩

theorem queue_haltQueue (s : State) (p q : QueueId) (r : HaltReason) :
    (s.haltQueue p r).queue q = if p = q then { s.queue p with state := .halted, halt := some r } else s.queue q := by
  rw [State.haltQueue, queue_setInterrupts, queue_setCompletion, queue_modQueue]

/-- What the report of a fault does, by the state of the queue. -/
theorem reportJobFault_halted {f : JobFault} {n : BitVec 16} (h : (s.queue q).state = .halted) :
    s.reportJobFault q f n = s := by
  simp only [State.reportJobFault, h]

theorem reportJobFault_halts {f : JobFault} {n : BitVec 16} (h : (s.queue q).state ≠ .halted)
    (ha : (s.queue q).state ≠ .aborting) :
    s.reportJobFault q f n = s.haltQueue q { code := .job f, origin := .job, seq := n } := by
  unfold State.reportJobFault
  split <;> simp_all

/-- The report of a fault, as the first fault's statement has it. -/
structure Reported (s r : State) (j : Job) (f : JobFault) : Prop where
  queue : r.queue j.queue =
    { s.queue j.queue with
      state := .halted
      halt := if (s.queue j.queue).state = .halted then (s.queue j.queue).halt
              else some { code := .job f, origin := .job, seq := j.seq } }
  other : ∀ q, q ≠ j.queue → r.queue q = s.queue q
  cause : (s.queue j.queue).state ≠ .halted → r.interrupts.halt = true
  slots : r.slots = s.slots
  tags : r.tags = s.tags
  slotPointer : r.slotPointer = s.slotPointer
  interlock : r.interlock = s.interlock
  fifo : r.completion.fifo = s.completion.fifo
  waiters : r.completion.waiters =
    (if (s.queue j.queue).state = .halted then s.completion.waiters
     else s.completion.waiters.filter fun p => p ≠ .queue j.queue)

theorem reported (j : Job) (f : JobFault) (h : (s.queue j.queue).state ≠ .aborting) :
    Reported s (s.reportJobFault j.queue f j.seq) j f := by
  by_cases halted : (s.queue j.queue).state = .halted
  · rw [reportJobFault_halted halted]
    refine ⟨?_, fun _ _ => rfl, fun n => absurd halted n, rfl, rfl, rfl, rfl, rfl, (if_pos halted).symm⟩
    rw [if_pos halted, ← halted]
  · rw [reportJobFault_halts halted h]
    refine ⟨?_, fun q hq => ?_, fun _ => rfl, rfl, rfl, rfl, rfl, rfl, (if_neg halted).symm⟩
    · rw [if_neg halted]
      exact (queue_haltQueue s j.queue _ _).trans (if_pos rfl)
    · exact (queue_haltQueue s j.queue q _).trans (if_neg (Ne.symm hq))

theorem faultEntered (f : PlacedFault) (h : (s.queue j.queue).state ≠ .aborting)
    (rising : j.bursts.Pairwise fun b c => b.index < c.index) :
    FaultEntered s ((s.reportJobFault j.queue f.fault j.seq).applyEnding i
      { j with status := some (.fault f.fault), place := some f.place }) i j f j.bursts := by
  have told := reported j f.fault h
  have outside := outside_reportJobFault s j.queue f.fault j.seq
  generalize s.reportJobFault j.queue f.fault j.seq = r at told outside
  have keep := slotsAndLocks_applyEnding r i { j with status := some (.fault f.fault), place := some f.place }
  refine ⟨slot_applyEnding r i rising, fun k hk => ?_, ⟨⟨_, (keep.queue _).trans told.queue⟩, fun n => ?_, ?_⟩, ?_,
    fun q hq => (keep.queue q).trans (told.other q hq), fun g => ?_, keep.slotPointer.trans told.slotPointer, ?_, ?_,
    fun w hw => (waiters_applyEnding r i _ w hw).2⟩
  · rw [(granted_applyEnding r _ hk).outline, State.slot, told.slots]
    rfl
  · rw [keep.interrupts]
    exact told.cause n
  · exact elsewhereKept_of_outside (outside.trans keep.toOutsideTable)
  · rw [keep.queue, told.queue]
  · rw [keep.tag, State.tag, told.tags]
    rfl
  · rw [keep.completion, told.fifo]
  · rw [keep.completion, told.waiters]

theorem finishIfOver_ending (h : s.slot i = some j) (ending : j.state = .ending) :
    s.finishIfOver i = if j.bursts = [] then s.finishJob i j else s := by
  simp only [State.finishIfOver, h, isOver_iff, ending, or_true, and_true]

/-- The first fault of a job, in full. -/
theorem firstFault_told (i : SlotId) (f : PlacedFault) (h : (s.queue j.queue).state ≠ .aborting)
    (rising : j.bursts.Pairwise fun b c => b.index < c.index) :
    FirstFault s (s.firstFault i j f) i j f j.bursts := by
  have entered := faultEntered (i := i) f h rising
  have outside := outside_firstFault s i j f
  unfold State.firstFault at outside ⊢
  generalize (s.reportJobFault j.queue f.fault j.seq).applyEnding i
    { j with status := some (.fault f.fault), place := some f.place } = u at entered outside ⊢
  obtain ⟨slot, -, ⟨⟨n, queue⟩, cause, -⟩, -⟩ := id entered
  rw [finishIfOver_ending slot rfl] at outside ⊢
  refine ⟨⟨?_, fun n => ?_, elsewhereKept_of_outside outside⟩, u, entered, rfl⟩
  · split
    · obtain ⟨m, hm⟩ := queue_finishJob_resting (s := u) (q := j.queue) (by simp [Resting, queue]) i (Job.faulted j f j.bursts)
      exact ⟨m, by rw [hm, queue]⟩
    · exact ⟨n, queue⟩
  · split
    · exact halt_finishJob (cause n) i _
    · exact cause n

/-- Settles O19. -/
theorem issueFailureIsFirstFault : Obligations.IssueFailureIsFirstFault := by
  intro i s j f cur slot active more room failure notAborting rising
  have may : j.mayIssue = true := (mayIssue_iff j).2 ⟨active, more, room⟩
  have issue : s.issueBurst i j = s.firstFault i { j with cursor := cur } f := by
    simp only [State.issueBurst, failure]
  have outside := outside_firstFault s i { j with cursor := cur } f
  refine ⟨_, ?_, outside.ext, outside.bankPointers, firstFault_told i f notAborting rising⟩
  show execBurstIssue i s = _
  simp only [execBurstIssue, slot, may, if_true, issue]

end Sys2Proof.Laws

/-!
PROOFS. The course of a burst (chapters 04, 06, 08, 09): its issue, the returns of its reads, its writes, its failures; the
finish of a job and the pop of the completion FIFO.
-/

namespace Sys2Proof.Laws

open Sys2Proof.Machine Sys2Proof.Safety

variable {s t u : State} {p : BankId} {i : SlotId} {j : Job} {b : Burst} {r : ReadRequest} {w : WriteRequest}
variable {bank : BankId} {k : BankBurst}

/-! ### Issue -/

theorem exec_burstIssue (slot : s.slot i = some j) (active : j.state = .active) (more : j.next < j.command.count)
    (room : j.inFlight < j.limit) : exec (.burstIssue i) s = .next (s.issueBurst i j) := by
  have may : j.mayIssue = true := (mayIssue_iff j).2 ⟨active, more, room⟩
  show execBurstIssue i s = _
  simp only [execBurstIssue, slot, may, if_true]

theorem issueBurst_resolved {src dst : List Place} {cur : Option Cursor}
    (h : resolveBurst s.ext.xsize s.segments j.next j.command.work j.cursor = (.ok (src, dst), cur)) :
    s.issueBurst i j = s.placeBurst i { j with cursor := cur } src dst := by
  simp only [State.issueBurst, h]

theorem placeBurst_fill {pattern : Half} {d : Side} (h : j.command.work = .fill pattern d) (src dst : List Place) :
    s.placeBurst i j src dst =
      s.setSlot i (some (j.addBurst ((Burst.issue j.next src dst).startWriting (fillWords pattern)))) := by
  simp only [State.placeBurst, h]

theorem placeBurst_plain (hf : ∀ pattern d, j.command.work ≠ .fill pattern d)
    (hr : j.command.work.readsOldDestination = false) (src dst : List Place) :
    s.placeBurst i j src dst = s.setSlot i (some (j.addBurst ((Burst.issue j.next src dst).startReading false))) := by
  unfold State.placeBurst
  dsimp only
  split
  · rename_i pattern d e
    exact absurd e (hf pattern d)
  · simp only [hr, Bool.false_eq_true, if_false]

theorem placeBurst_lock (hr : j.command.work.readsOldDestination = true) (src : List Place) (key : Place) :
    s.placeBurst i j src [key] = s.requestLock i j (Burst.issue j.next src [key]) key := by
  unfold State.placeBurst
  dsimp only
  split
  · rename_i pattern d e
    rw [e] at hr
    cases hr
  · simp only [hr, if_true]

theorem grants_iff (l : Interlock) (key : Place) :
    l.grants key = true ↔ (∀ e ∈ l.table, e.key ≠ key) ∧ l.table.length < 16 := by
  have held : l.held key = false ↔ ∀ e ∈ l.table, e.key ≠ key := by
    rw [← Bool.not_eq_true, held_iff]
    simp
  simp [Interlock.grants, held]

/-- Settles O18. -/
theorem burstIssueResult : Obligations.BurstIssueResult := by
  intro i s j src dst cur b put slot active more room resolved hb hput
  rw [exec_burstIssue slot active more room, issueBurst_resolved resolved]
  have added : ∀ c, Job.addBurst { j with cursor := cur } c = put c := fun c => by
    rw [hput, Job.addBurst, active]
  refine ⟨fun pattern d work => ?_, fun noFill plain => ?_, fun lock key hdst => ⟨fun free room => ?_, fun blocked => ?_⟩⟩
  · rw [placeBurst_fill (j := { j with cursor := cur }) work, added, hb]
    rfl
  · rw [placeBurst_plain (j := { j with cursor := cur }) noFill plain, added, hb, Burst.startReading, Burst.placedReads,
      if_neg Bool.false_ne_true, List.append_nil]
    rfl
  · rw [hdst, placeBurst_lock (j := { j with cursor := cur }) lock, State.requestLock,
      if_pos ((grants_iff _ _).2 ⟨free, room⟩), added, hb]
    simp [Burst.startReading, Burst.placedReads, Burst.issue, hdst]
  · have refused : ¬s.interlock.grants key = true := by
      rw [grants_iff]
      rintro ⟨free, room⟩
      rcases blocked with ⟨e, he, hk⟩ | full
      · exact free e he hk
      · exact absurd room (Nat.not_lt.2 full)
    rw [hdst, placeBurst_lock (j := { j with cursor := cur }) lock, State.requestLock, if_neg refused, added, hb]
    simp [Burst.issue, hdst]

/-! ### The takes of the bank ports -/

theorem exec_burstReadTake (choice : s.bankChoice p = some (i, j, b))
    (found : b.reads.find? (ReadRequest.waitsAtBank p) = some r) (place : r.place = .bank bank k) :
    exec (.burstReadTake p) s =
      .next ((s.setBankPointer p i).readReturns i j b r (s.memory.burstOutcome bank k)) := by
  obtain ⟨role, place', stage⟩ := r
  subst place
  show execBurstReadTake p s = _
  simp only [execBurstReadTake, choice, found]

theorem exec_burstWriteTake (choice : s.bankChoice p = some (i, j, b))
    (noRead : b.reads.find? (ReadRequest.waitsAtBank p) = none)
    (found : b.writes.find? (WriteRequest.waitsAtBank p) = some w) (place : w.place = .bank bank k) :
    exec (.burstWriteTake p) s =
      .next ({ s.setBankPointer p i with memory := s.memory.writeBurst bank k w.words }.writeDone i j b w) := by
  obtain ⟨place', stage, words⟩ := w
  subst place
  show execBurstWriteTake p s = _
  simp only [execBurstWriteTake, choice, noRead, found]

theorem burstOutcome_words {m : Memory} (h : ∀ n, (m.readWord bank (burstWord k n)).agrees = true) :
    m.burstOutcome bank k = .words (mkBurst fun n => (m.readWord bank (burstWord k n)).data) := by
  have : m.firstParityError bank k = none := find_none fun n => by rw [h n]; rfl
  simp only [Memory.burstOutcome, this]
  rfl

theorem burstOutcome_failed {m : Memory} {n : Fin 8} (error : (m.readWord bank (burstWord k n)).agrees = false)
    (before : ∀ o, o < n → (m.readWord bank (burstWord k o)).agrees = true) :
    m.burstOutcome bank k = .failed { fault := .bankParity, place := .bank bank (burstWord k n) } := by
  have : m.firstParityError bank k = some n :=
    find_first (by rw [error]; rfl) fun o ho => by rw [before o ho]; rfl
  simp only [Memory.burstOutcome, this]

theorem burstOutcome_someError {m : Memory} (h : ∃ n, (m.readWord bank (burstWord k n)).agrees = false) :
    ∃ f, m.burstOutcome bank k = .failed f := by
  unfold Memory.burstOutcome
  split
  · exact ⟨_, rfl⟩
  · rename_i none
    obtain ⟨n, hn⟩ := h
    have := List.find?_eq_none.1 none n (List.mem_finRange n)
    rw [hn] at this
    exact absurd rfl this

/-! ### A read returns -/

theorem allReturned_eq (b : Burst) : b.allReturned = b.reads.all hasReturned := rfl

/-- The combine of every MOVE: its writes are placed, and its clamps counted. -/
theorem combine_move (h : j.command.work.kind = .move) :
    s.combine i j b = s.setSlot i (some
      { j.putBurst
          { b with
            state := .writing
            writes := b.dests.map fun d => { place := d, stage := .waiting, words := (b.combined j.command.work).1 } } with
        saturation := min (j.saturation + (b.combined j.command.work).2) 65535 }) := by
  unfold State.combine
  dsimp only
  split
  · rename_i e
    rw [e] at h
    cases h
  all_goals rfl

/-- A read of a running MOVE returns; with the burst's last read the combine follows. -/
theorem readReturns_move (running : j.isRunning = true) (good : b.failed = false) (move : j.command.work.kind = .move)
    {c : Burst} {d : BurstData} (hc : c = b.setRead r (.returned d)) :
    s.readReturns i j b r (.words d) = s.setSlot i (some
      (if c.reads.all hasReturned = true then
        { j.putBurst
            { c with
              state := .writing
              writes := b.dests.map fun e => { place := e, stage := .waiting, words := (c.combined j.command.work).1 } } with
          saturation := min (j.saturation + (c.combined j.command.work).2) 65535 }
       else j.putBurst c)) := by
  simp only [State.readReturns, running, good, Bool.not_false, Bool.and_self, if_true, ← hc, allReturned_eq,
    combine_move move]
  have dests : c.dests = b.dests := by rw [hc]; rfl
  rw [dests]
  split <;> rfl

/-- Settles O23. -/
theorem bankReadReturns : Obligations.BankReadReturns := by
  refine ⟨fun p s i j b r bank k choice found place useless => ⟨fun good => ?_, fun bad => ?_⟩,
    fun p s i j b c role bank k choice found running good move whole hc => ?_⟩
  · rw [exec_burstReadTake choice found place, burstOutcome_words good, readReturns_discard _ _ _ _ _ _ useless]
  · obtain ⟨f, hf⟩ := burstOutcome_someError bad
    rw [exec_burstReadTake choice found place, hf, readReturns_secondFailure _ _ _ _ _ _ useless]
  · rw [exec_burstReadTake choice found rfl, burstOutcome_words whole, readReturns_move running good move hc]

/-! ### First faults -/

theorem putBurst_rising {l : Job} {c : Burst} (h : l.bursts.Pairwise fun b c => b.index < c.index) :
    (l.putBurst c).bursts.Pairwise fun b c => b.index < c.index := by
  have index : ∀ x : Burst, (if x.index = c.index then c else x).index = x.index := fun x => by
    split
    · exact Eq.symm ‹_›
    · rfl
  refine List.pairwise_map.2 ?_
  simpa only [index] using h

theorem readReturns_fault (running : j.isRunning = true) (good : b.failed = false) (f : PlacedFault) :
    s.readReturns i j b r (.failed f) = s.firstFault i (j.putBurst (failedRead b r)) f := by
  simp only [State.readReturns, running, good, Bool.not_false, Bool.and_self, if_true, failRead_eq]

/-- Settles O26. -/
theorem parityErrorIsFirstFault : Obligations.ParityErrorIsFirstFault := by
  intro p s i j b c r bank k n choice found place running good notAborting rising error before hc
  rw [exec_burstReadTake choice found place, burstOutcome_failed error before, readReturns_fault running good, ← hc]
  have outside := outside_firstFault (s.setBankPointer p i) i (j.putBurst c)
    { fault := .bankParity, place := .bank bank (burstWord k n) }
  refine ⟨_, rfl, outside.ext, ?_, fun o ho => ?_, ?_⟩
  · rw [State.bankPointer, outside.bankPointers]
    exact bankPointer_setBankPointer_self s p i
  · rw [State.bankPointer, outside.bankPointers]
    exact bankPointer_setBankPointer_ne s p o i (Ne.symm ho)
  · exact firstFault_told (s := s.setBankPointer p i) (j := j.putBurst c) i _ notAborting (putBurst_rising rising)

/-! ### Writes of a bank -/

/-- While another write of the burst is not done, a write that is done only changes the burst. -/
theorem writeDone_more (h : ∃ x ∈ b.writes, x ≠ w ∧ x.stage ≠ .done) :
    s.writeDone i j b w = s.setSlot i (some (j.putBurst (b.setWrite w .done))) := by
  obtain ⟨x, hx, ne, open_⟩ := h
  have more : (b.setWrite w .done).allWritten = false := by
    refine List.all_eq_false.2 ⟨x, List.mem_map.2 ⟨x, hx, if_neg ne⟩, ?_⟩
    simpa using open_
  simp only [State.writeDone, more, Bool.false_eq_true, if_false]

/-- Settles O27. -/
theorem bankWriteStores : Obligations.BankWriteStores := by
  intro p s i j b w bank k choice noRead found place
  have outside := outside_writeDone { s.setBankPointer p i with memory := s.memory.writeBurst bank k w.words } i j b w
  rw [exec_burstWriteTake choice noRead found place]
  refine ⟨_, rfl, fun n => ?_, fun c y h => ?_, ?_, fun o ho => ?_, outside.segments, outside.ext, outside.host,
    fun more => ?_⟩
  · rw [outside.memory]
    exact readWord_writeBurst_self s.memory bank k n w.words
  · rw [outside.memory]
    exact readWord_writeBurst_other s.memory bank c k y w.words fun n e => h n ⟨e.1.symm, e.2.symm⟩
  · rw [State.bankPointer, outside.bankPointers]
    exact bankPointer_setBankPointer_self s p i
  · rw [State.bankPointer, outside.bankPointers]
    exact bankPointer_setBankPointer_ne s p o i (Ne.symm ho)
  · rw [writeDone_more more]
    exact slot_setSlot_self _ _ _

/-- Settles O28. -/
theorem lastWriteFinishesJob : Obligations.LastWriteFinishesJob := by
  refine ⟨fun p s i j b w bank k choice noRead found place last => ?_, fun s i j st settled =>
    ⟨finishJob_silent s i settled, finishJob_post s i settled, finishJob_wait s i settled⟩, fun s i j st slot status => ?_⟩
  · rw [exec_burstWriteTake choice noRead found place, writeDone_last _ _ _ _ _ last]
  · have poison : decide (j.status ≠ some Status.ok) = decide (st ≠ Status.ok) := by simp [status]
    cases tag : j.command.tag <;> simp only [State.freeSlot, slot, tag, poison, jobFreed_eq]

/-! ### A TABLOAD's burst -/

theorem setSlot_same (h : s.slot i = some j) : s.setSlot i (some j) = s := by
  have : s.slots.set i (some j) = s.slots := by
    refine Vector.ext fun n hn => ?_
    rw [Vector.getElem_set]
    split
    · rename_i e
      subst e
      exact h.symm
    · rfl
  rw [State.setSlot, this]

theorem endBurstWell_of_slot (h : s.slot i = some j) (n : Nat) :
    s.endBurstWell i n = afterBurst s i { j with done := j.done + 1 } n := by
  rw [← endBurstWell_eq, setSlot_same h]

theorem endBurst_of_slot (h : s.slot i = some j) (n : Nat) : s.endBurst i n = afterBurst s i j n := by
  rw [← endBurst_eq, setSlot_same h]

theorem combine_tabload {source : BankId} {a : BitVec 22} {start : BitVec 9} (h : s.slot i = some j)
    (work : j.command.work = .tabload source a start) :
    s.combine i j b =
      afterBurst { s with segments := loadGroup s.segments start b.index (b.combined j.command.work).1 } i
        { j with done := j.done + 1 } b.index := by
  unfold State.combine
  simp only [work]
  generalize loadGroup s.segments start b.index _ = segments
  exact endBurstWell_of_slot (s := { s with segments := segments }) h b.index

/-- The two entries of one word of a TABLOAD's burst (R118). -/
def loadWord (start i : Nat) (d : BurstData) (t : Vector SegEntry 512) (k : Fin 8) : Vector SegEntry 512 :=
  (t.set ((start + 16 * i + 2 * k.val) % 512) (SegEntry.ofHalf (d[k].extractLsb' 0 32))).set
    ((start + 16 * i + 2 * k.val + 1) % 512) (SegEntry.ofHalf (d[k].extractLsb' 32 32))

theorem loadGroup_eq (table : Vector SegEntry 512) (start : BitVec 9) (i : Nat) (d : BurstData) :
    loadGroup table start i d = (List.finRange 8).foldl (loadWord start.toNat i d) table := rfl

section Load

variable {start n : Nat} {d : BurstData}

theorem loadWord_other {t : Vector SegEntry 512} {k : Fin 8} {m : SegIndex}
    (low : m.val ≠ (start + 16 * n + 2 * k.val) % 512) (high : m.val ≠ (start + 16 * n + 2 * k.val + 1) % 512) :
    (loadWord start n d t k)[m] = t[m] := by
  rw [Fin.getElem_fin, loadWord, Vector.getElem_set_ne _ _ (Ne.symm high), Vector.getElem_set_ne _ _ (Ne.symm low)]
  rfl

theorem loadWord_low {t : Vector SegEntry 512} {k : Fin 8} {m : SegIndex}
    (low : m.val = (start + 16 * n + 2 * k.val) % 512) :
    (loadWord start n d t k)[m] = SegEntry.ofHalf (d[k].extractLsb' 0 32) := by
  simp only [Fin.getElem_fin, loadWord, low]
  rw [Vector.getElem_set_ne _ _ (by omega), Vector.getElem_set_self]

theorem loadWord_high {t : Vector SegEntry 512} {k : Fin 8} {m : SegIndex}
    (high : m.val = (start + 16 * n + 2 * k.val + 1) % 512) :
    (loadWord start n d t k)[m] = SegEntry.ofHalf (d[k].extractLsb' 32 32) := by
  simp only [Fin.getElem_fin, loadWord, high, Vector.getElem_set_self]

theorem loadWords_other {l : List (Fin 8)} {t : Vector SegEntry 512} {m : SegIndex}
    (h : ∀ k ∈ l, m.val ≠ (start + 16 * n + 2 * k.val) % 512 ∧ m.val ≠ (start + 16 * n + 2 * k.val + 1) % 512) :
    (l.foldl (loadWord start n d) t)[m] = t[m] := by
  induction l generalizing t with
  | nil => rfl
  | cons k l ih =>
    obtain ⟨low, high⟩ := h k List.mem_cons_self
    rw [List.foldl_cons, ih fun x hx => h x (List.mem_cons_of_mem _ hx), loadWord_other low high]

/-- A later word's entries are not an earlier word's. -/
theorem loadWords_self {l : List (Fin 8)} (nodup : l.Nodup) {t : Vector SegEntry 512} {k : Fin 8} (hk : k ∈ l)
    {m : SegIndex} {e : SegEntry} (at_ : m.val = (start + 16 * n + 2 * k.val) % 512 ∨
      m.val = (start + 16 * n + 2 * k.val + 1) % 512) (written : ∀ v, (loadWord start n d v k)[m] = e) :
    (l.foldl (loadWord start n d) t)[m] = e := by
  induction l generalizing t with
  | nil => cases hk
  | cons x l ih =>
    obtain ⟨hx, nodup⟩ := List.nodup_cons.1 nodup
    rw [List.foldl_cons]
    rcases List.mem_cons.1 hk with rfl | hk
    · rw [loadWords_other fun y hy => ?_, written]
      have ne : y.val ≠ k.val := fun e => hx (Fin.ext e ▸ hy)
      omega
    · exact ih nodup hk

end Load

/-- Settles O25. -/
theorem tabloadWritesGroup : Obligations.TabloadWritesGroup := by
  refine ⟨fun p s i j b bank source k a start choice reads hp running good work whole => ?_,
    fun table start i d => ⟨fun k => ⟨?_, ?_⟩, fun m hm => ?_⟩⟩
  · have found : b.reads.find? (ReadRequest.waitsAtBank p) =
        some { role := .source, place := .bank bank k, stage := .waiting } := by
      simp [reads, ReadRequest.waitsAtBank, ReadRequest.isWaiting, Place.atBank, hp]
    obtain ⟨slot, -, -⟩ := bankChoice_sound choice
    rw [exec_burstReadTake choice found rfl, burstOutcome_words whole]
    generalize hd : (mkBurst fun n => (s.memory.readWord bank (burstWord k n)).data) = d
    have returned : (b.setRead { role := .source, place := .bank bank k, stage := .waiting } (.returned d)).reads =
        [{ role := .source, place := .bank bank k, stage := .returned d }] := by
      simp [Burst.setRead, reads]
    have words : (b.setRead { role := .source, place := .bank bank k, stage := .waiting } (.returned d)).combined
        j.command.work = (d, 0) := by
      simp only [Burst.combined, work, returned]
      rfl
    simp only [State.readReturns, running, good, Bool.not_false, Bool.and_self, if_true, Burst.allReturned, returned]
    rw [if_pos (by rfl), combine_tabload (s := s.setBankPointer p i) slot work, words]
    rfl
  · rw [loadGroup_eq]
    refine loadWords_self (List.nodup_finRange 8) (List.mem_finRange k) (.inl rfl) fun v => loadWord_low rfl
  · rw [loadGroup_eq]
    refine loadWords_self (List.nodup_finRange 8) (List.mem_finRange k) (.inr ?_) fun v => loadWord_high ?_
    all_goals simp only [Fin.ofNat]
  · rw [loadGroup_eq]
    refine loadWords_other fun k _ => ⟨fun e => hm (2 * k.val) (by omega) (Fin.ext e), fun e =>
      hm (2 * k.val + 1) (by omega) (Fin.ext e)⟩

/-! ### Responses -/

variable {d : ReqId} {o : BusyId}

theorem owner_eq (slot : s.slot o.slot = some j) (burst : j.bursts.find? (fun c => c.index = o.burst) = some b) :
    s.owner o = some (j, b) := by
  simp only [State.owner, slot, burst]

theorem deliver_read {role : ReadRole} {x : ExtOutcome} (slot : s.slot o.slot = some j)
    (burst : j.bursts.find? (fun c => c.index = o.burst) = some b) (hrole : o.role = .read role)
    (found : b.reads.find? (fun r => r.isSent && r.role = role && r.place = .ext o.address) = some r) :
    s.deliver o x = s.readReturns o.slot j b r (x.forRead o.address) := by
  simp only [State.deliver, owner_eq slot burst, hrole, found]

theorem deliver_written {d : BurstData} (slot : s.slot o.slot = some j)
    (burst : j.bursts.find? (fun c => c.index = o.burst) = some b) (hrole : o.role = .write)
    (found : b.writes.find? (fun w => w.stage = .sent && w.place = .ext o.address) = some w) :
    s.deliver o (.ok d) = s.writeDone o.slot j b w := by
  simp only [State.deliver, owner_eq slot burst, hrole, found]

theorem deliver_unwritten {f : JobFault} (slot : s.slot o.slot = some j)
    (burst : j.bursts.find? (fun c => c.index = o.burst) = some b) (hrole : o.role = .write)
    (found : b.writes.find? (fun w => w.stage = .sent && w.place = .ext o.address) = some w) :
    s.deliver o (.failed f) = s.writeFails o.slot j b (extFault f o.address) := by
  simp only [State.deliver, owner_eq slot burst, hrole, found]

/-- Settles O33. -/
theorem okResponseDelivered : Obligations.OkResponseDelivered := by
  intro s d data o j b hr busy accepted slot burst
  have answer := exec_response_busy .ok data hr busy accepted
  refine ⟨fun role r hrole found => ?_, fun words hrole writes => ?_⟩
  · rw [answer, deliver_read (s := s.setReqId d .free) slot burst hrole found]
    refine ⟨fun c running good move hc => ?_, fun useless => ?_⟩
    · exact congrArg _ (readReturns_move running good move hc)
    · exact congrArg _ (readReturns_discard _ _ _ _ _ _ useless)
  · have found : b.writes.find? (fun w => w.stage = .sent && w.place = .ext o.address) =
        some { place := .ext o.address, stage := .sent, words := words } := by
      simp [writes]
    rw [answer, responseOutcome, deliver_written (s := s.setReqId d .free) slot burst hrole found]
    refine congrArg _ (writeDone_last _ _ _ _ _ fun x hx => .inl ?_)
    rw [writes] at hx
    exact List.mem_singleton.1 hx

/-- The read that a BUSY ID carries is the only one of its role and place, so its failure leaves the burst as the ID's
failure names it. -/
theorem failedRead_of_carried {role : ReadRole} (hrole : o.role = .read role)
    (found : b.reads.find? (fun r => r.isSent && r.role = role && r.place = .ext o.address) = some r) :
    failedRead b r = failedRequest o b := by
  have same : ∀ x : ReadRequest, (x.isSent && x.role = role && x.place = .ext o.address) = decide (x = r) := fun x => by
    have hr := List.find?_some found
    obtain ⟨xr, xp, xs⟩ := x
    obtain ⟨rr, rp, rs⟩ := r
    simp only [ReadRequest.isSent, Bool.and_eq_true, decide_eq_true_eq] at hr
    obtain ⟨⟨rfl, rfl⟩, rfl⟩ := hr
    simp only [ReadRequest.isSent, ReadRequest.mk.injEq, Bool.decide_and, Bool.and_comm, Bool.and_assoc]
  simp only [failedRequest, hrole, failedRead, same, decide_not]

theorem carries_read {role : ReadRole} (hrole : o.role = .read role) (h : carries o b = true) :
    ∃ r, b.reads.find? (fun r => r.isSent && r.role = role && r.place = .ext o.address) = some r := by
  simp only [carries, hrole, List.any_eq_true] at h
  exact Option.isSome_iff_exists.1 (List.find?_isSome.2 h)

theorem carries_write (hrole : o.role = .write) (h : carries o b = true) :
    ∃ w, b.writes.find? (fun w => w.stage = .sent && w.place = .ext o.address) = some w := by
  simp only [carries, hrole, List.any_eq_true] at h
  exact Option.isSome_iff_exists.1 (List.find?_isSome.2 h)

/-- A failed request of a running job is its first fault. -/
theorem deliver_firstFault {f : JobFault} (slot : s.slot o.slot = some j)
    (burst : j.bursts.find? (fun c => c.index = o.burst) = some b) (carried : carries o b = true)
    (good : b.failed = false) (running : j.isRunning = true) :
    s.deliver o (.failed f) =
      s.firstFault o.slot (j.putBurst (failedRequest o b)) { fault := f, place := .ext (8 * o.address) } := by
  cases hrole : o.role with
  | read role =>
    obtain ⟨r, found⟩ := carries_read hrole carried
    rw [deliver_read slot burst hrole found, ← failedRead_of_carried hrole found]
    exact readReturns_fault running good _
  | write =>
    obtain ⟨w, found⟩ := carries_write hrole carried
    rw [deliver_unwritten slot burst hrole found]
    simp only [State.writeFails, running, if_true, failedRequest, hrole]
    rfl

theorem deliver_secondRead {role : ReadRole} {f : JobFault} (slot : s.slot o.slot = some j)
    (burst : j.bursts.find? (fun c => c.index = o.burst) = some b) (hrole : o.role = .read role)
    (carried : carries o b = true) (useless : j.isRunning = false ∨ b.failed = true) :
    s.deliver o (.failed f) = afterDiscard s o.slot j (failedRequest o b) := by
  obtain ⟨r, found⟩ := carries_read hrole carried
  rw [deliver_read slot burst hrole found, ← failedRead_of_carried hrole found]
  exact readReturns_secondFailure _ _ _ _ _ _ useless

theorem deliver_secondWrite {f : JobFault} (slot : s.slot o.slot = some j)
    (burst : j.bursts.find? (fun c => c.index = o.burst) = some b) (hrole : o.role = .write)
    (carried : carries o b = true) (ended : j.isRunning = false) :
    s.deliver o (.failed f) = afterBurst s o.slot j b.index := by
  obtain ⟨w, found⟩ := carries_write hrole carried
  rw [deliver_unwritten slot burst hrole found]
  simp only [State.writeFails, ended, Bool.false_eq_true, if_false]
  exact endBurst_of_slot slot b.index

/-- The first fault of a request whose ID has been given a new state. -/
theorem firstFault_of_request (x : IdState) (f : JobFault) (slot : s.slot o.slot = some j)
    (burst : j.bursts.find? (fun c => c.index = o.burst) = some b) (carried : carries o b = true)
    (good : b.failed = false) (running : j.isRunning = true) (notAborting : (s.queue j.queue).state ≠ .aborting)
    (rising : j.bursts.Pairwise fun b c => b.index < c.index) :
    ∃ t, (s.setReqId d x).deliver o (.failed f) = t ∧ t.reqId d = x ∧ (∀ e, e ≠ d → t.reqId e = s.reqId e) ∧
      t.bankPointers = s.bankPointers ∧
      FirstFault s t o.slot j { fault := f, place := .ext (8 * o.address) } (j.putBurst (failedRequest o b)).bursts := by
  have outside := outside_deliver (s.setReqId d x) o (.failed f)
  refine ⟨_, rfl, ?_, fun e he => ?_, outside.bankPointers, ?_⟩
  · rw [State.reqId, outside.ext]
    exact reqId_setReqId_self s d x
  · rw [State.reqId, outside.ext]
    exact reqId_setReqId_ne s d e x (Ne.symm he)
  · rw [deliver_firstFault (s := s.setReqId d x) slot burst carried good running]
    exact firstFault_told (s := s.setReqId d x) (j := j.putBurst (failedRequest o b)) o.slot _ notAborting
      (putBurst_rising rising)

/-- Settles O34. -/
theorem externalFailureIsFirstFault : Obligations.ExternalFailureIsFirstFault := by
  intro s d data o j b hr busy accepted slot burst
  have answer := exec_response_busy .error data hr busy accepted
  have expiry := exec_expiry_busy (b := o) hr busy accepted
  refine ⟨fun carried good running notAborting rising => ⟨?_, fun runs => ?_⟩,
    fun role hrole carried useless => ⟨?_, fun runs => ?_⟩, fun hrole carried ended => ⟨?_, fun runs => ?_⟩⟩
  · obtain ⟨t, ht, rest⟩ := firstFault_of_request (d := d) .free .extError slot burst carried good running notAborting rising
    exact ⟨t, ht ▸ answer, rest⟩
  · obtain ⟨t, ht, rest⟩ :=
      firstFault_of_request (d := d) .quarantined .extTimeout slot burst carried good running notAborting rising
    exact ⟨t, ht ▸ expiry runs, rest⟩
  · exact answer.trans (congrArg _ (deliver_secondRead (s := s.setReqId d .free) slot burst hrole carried useless))
  · exact (expiry runs).trans
      (congrArg _ (deliver_secondRead (s := s.setReqId d .quarantined) slot burst hrole carried useless))
  · exact answer.trans (congrArg _ (deliver_secondWrite (s := s.setReqId d .free) slot burst hrole carried ended))
  · exact (expiry runs).trans
      (congrArg _ (deliver_secondWrite (s := s.setReqId d .quarantined) slot burst hrole carried ended))

/-! ### The pop -/

section Pop

variable {record : Record} {rest : List Record}

theorem popRecord_empty (h : s.completion.fifo = []) :
    s.popRecord = s.setCompletion { s.completion with view := none } := by
  simp only [State.popRecord, h]

theorem popRecord_alone (h : s.completion.fifo = record :: rest) (alone : s.completion.waiters = []) :
    s.popRecord = s.setCompletion { s.completion with fifo := rest, view := some record } := by
  simp only [State.popRecord, h, State.giveRoom, setCompletion_completion, alone]

/-- The room of a pop goes to the NOTE of the queue that waits first. -/
theorem popRecord_note {q : QueueId} {ws : List Poster} {c : HeldCommand} {cs : List HeldCommand}
    (h : s.completion.fifo = record :: rest) (first : s.completion.waiters = .queue q :: ws)
    (head : (s.queue q).commands = c :: cs) :
    s.popRecord =
      ((s.setCompletion
          { fifo := rest ++ [.note q c.seq c.parts.mark], waiters := ws, view := some record }).modQueue q
          fun x => x.pop.withState .running).setInterrupts
        { s.interrupts with note := s.interrupts.note || c.parts.flag } := by
  simp only [State.popRecord, h, State.giveRoom, setCompletion_completion, first, State.postNow, queue_setCompletion, head]
  rfl

/-- The room of a pop goes to the job that waits first, whose slot is freed. -/
theorem popRecord_job {ws : List Poster} (h : s.completion.fifo = record :: rest)
    (first : s.completion.waiters = .slot i :: ws) (slot : s.slot i = some j) :
    s.popRecord =
      (s.setCompletion { fifo := rest ++ [j.record], waiters := ws, view := some record }).freeSlot i := by
  simp only [State.popRecord, h, State.giveRoom, setCompletion_completion, first, State.postNow, slot_setCompletion, slot]
  rfl

end Pop

/-- Settles O37. -/
theorem popResult : Obligations.PopResult := by
  intro s free
  have pop : exec .cfpop s = .next s.popRecord := congrArg _ (hostWrite_of_free free _)
  rw [pop]
  refine ⟨fun empty => by rw [popRecord_empty empty], fun r rest fifo =>
    ⟨fun alone => by rw [popRecord_alone fifo alone], fun q ws c cs waiters head => ?_,
      fun i ws j st u waiters slot status hu => ?_⟩⟩
  · rw [popRecord_note fifo waiters head, State.modQueue, Queue.pop, Queue.withState, queue_setCompletion, head,
      List.tail_cons]
  · have poison : decide (j.status ≠ some Status.ok) = decide (st ≠ Status.ok) := by simp [status]
    rw [popRecord_job fifo waiters slot, Job.record, status, hu]
    cases tag : j.command.tag <;>
      simp only [State.freeSlot, slot_setCompletion, slot, tag, poison, jobFreed_eq, Option.getD_some]

end Sys2Proof.Laws

/-!
PROOFS. What a happening does to the queues and to the job records as the queues see them (chapters 02, 03, 04): the moves
of a queue, the jobs carried on in their slots, the posters that keep waiting, and the course of the engine's operations.
-/

namespace Sys2Proof.Laws

open Sys2Proof.Machine Sys2Proof.Safety

variable {s t u : State} {q : QueueId} {i k : SlotId} {j : Job}

/-! ### The moves of a queue -/

/-- A queue moves without a job entering or leaving a slot: its count is kept, it does not come to ABORTING or
STALLED(SLOT), and it stays ordered and sound. -/
structure Moved (x y : Queue) : Prop where
  jobs : y.jobs = x.jobs
  aborting : y.state = .aborting → x.state = .aborting
  stalled : y.state = .stalledSlot → x.state = .stalledSlot
  ordered : QueueOrdered x → QueueOrdered y
  sound : QueueSound x → QueueSound y

theorem Moved.refl (x : Queue) : Moved x x := ⟨rfl, id, id, id, id⟩

theorem Moved.trans {x y z : Queue} (h : Moved x y) (k : Moved y z) : Moved x z :=
  ⟨k.jobs.trans h.jobs, h.aborting ∘ k.aborting, h.stalled ∘ k.stalled, k.ordered ∘ h.ordered, k.sound ∘ h.sound⟩

/-- Commands leave a queue from its front, so what stays is ordered. -/
theorem queueOrdered_of_suffix {x y : Queue} (h : y.commands <:+ x.commands) (hn : y.nextSeq = x.nextSeq)
    (hx : QueueOrdered x) : QueueOrdered y := by
  obtain ⟨gone, e⟩ := h
  obtain ⟨bound, seqs⟩ := hx
  have length : gone.length + y.commands.length = x.commands.length := by rw [← e, List.length_append]
  refine ⟨by omega, fun n hlt => ?_⟩
  have at_ := seqs (gone.length + n) (by omega)
  have same : x.commands[gone.length + n] = y.commands[n] := by
    simp only [← e]
    rw [List.getElem_append_right (by omega)]
    simp
  have left : x.commands.length - (gone.length + n) = y.commands.length - n := by omega
  rw [same, left] at at_
  rw [at_, hn]

theorem halt_none {x : Queue} (h : QueueSound x) (hs : x.state ≠ .halted) : x.halt = none := by
  obtain ⟨-, -, -, -, halted⟩ := h
  rw [← Option.not_isSome_iff_eq_none, halted]
  exact hs

/-- A queue in STOPPED or RUNNING is sound while it has no halt reason. -/
theorem queueSound_idle {x : Queue} (hs : x.state = .stopped ∨ x.state = .running) (hn : x.halt = none) :
    QueueSound x := by
  rcases hs with hs | hs <;> simp [QueueSound, hs, hn]

theorem moved_halted (x : Queue) (r : HaltReason) : Moved x { x with state := .halted, halt := some r } :=
  ⟨rfl, nofun, nofun, queueOrdered_of_suffix List.suffix_rfl rfl, fun _ => by simp [QueueSound]⟩

theorem moved_passed {x : Queue} (hs : x.state ≠ .halted) : Moved x (x.pop.withState .running) :=
  ⟨rfl, nofun, nofun, queueOrdered_of_suffix (List.tail_suffix _) rfl,
    fun h => queueSound_idle (.inr rfl) (halt_none (x := x) h hs)⟩

theorem moved_fenced {x : Queue} (hs : x.state ≠ .halted) (wait : headIs x (fun p => p.kind = 3) = true) :
    Moved x (x.withState .fenced) := by
  refine ⟨rfl, nofun, nofun, queueOrdered_of_suffix List.suffix_rfl rfl, fun h => ?_⟩
  have := halt_none h hs
  simpa [QueueSound, Queue.withState, this, headIs] using wait

theorem moved_stalledRoom {x : Queue} (hs : x.state ≠ .halted) (note : headIs x (fun p => p.kind = 4) = true) :
    Moved x (x.withState .stalledRoom) := by
  refine ⟨rfl, nofun, nofun, queueOrdered_of_suffix List.suffix_rfl rfl, fun h => ?_⟩
  have := halt_none h hs
  simpa [QueueSound, Queue.withState, this, headIs] using note

/-- A queue that keeps its state, commands and halt reason. -/
theorem moved_of_same {x y : Queue} (hj : y.jobs = x.jobs) (hs : y.state = x.state) (hc : y.commands = x.commands)
    (hn : y.nextSeq = x.nextSeq) (hh : y.halt = x.halt) : Moved x y := by
  refine ⟨hj, hs ▸ id, hs ▸ id, queueOrdered_of_suffix (hc ▸ List.suffix_rfl) hn, fun h => ?_⟩
  simpa only [QueueSound, headIs, hs, hc, hh] using h

theorem moved_judged (x : Queue) (r : ControlResult) : Moved x (x.judged r) := moved_of_same rfl rfl rfl rfl rfl

theorem moved_stopped {x : Queue} (hs : x.state ≠ .halted) (r : ControlResult) :
    Moved x ((x.withState .stopped).judged r) :=
  ⟨rfl, nofun, nofun, queueOrdered_of_suffix List.suffix_rfl rfl,
    fun h => queueSound_idle (.inl rfl) (halt_none (x := x) h hs)⟩

theorem queueOrdered_append {x : Queue} (h : QueueOrdered x) (room : x.commands.length < Config.queueDepth) (p : Parts)
    (r : PushResult) :
    QueueOrdered { x with
      commands := x.commands ++ [{ parts := p, seq := x.nextSeq }], nextSeq := x.nextSeq + 1, pushResult := r } := by
  obtain ⟨-, seqs⟩ := h
  refine ⟨by simpa using room, fun n hn => ?_⟩
  simp only [List.length_append, List.length_singleton] at hn ⊢
  rcases Nat.lt_or_ge n x.commands.length with before | last
  · have next : BitVec.ofNat 16 (x.commands.length + 1 - n) = BitVec.ofNat 16 (x.commands.length - n) + 1 := by
      have : x.commands.length + 1 - n = x.commands.length - n + 1 := by omega
      rw [this, BitVec.ofNat_add]
      rfl
    rw [List.getElem_append_left before, next, ← BitVec.add_assoc, seqs n before]
  · have e : n = x.commands.length := by omega
    subst e
    rw [List.getElem_append_right (Nat.le_refl _)]
    simp

theorem moved_push (x : Queue) (p : Parts) : Moved x (x.push p) := by
  unfold Queue.push Queue.judgePush
  split
  · rename_i accepted
    have open_ : x.state ≠ .aborting ∧ x.commands.length < Config.queueDepth := by
      split at accepted
      · cases accepted
      · split at accepted
        · exact ⟨‹_›, ‹_›⟩
        · cases accepted
    refine ⟨rfl, id, id, fun h => queueOrdered_append h open_.2 p _, fun h => ?_⟩
    obtain ⟨fenced, slot, room, -, halted⟩ := h
    have head : ∀ test, headIs x test = true →
        (((x.commands ++ [({ parts := p, seq := x.nextSeq } : HeldCommand)]).head?).any fun c => test c.parts) = true := by
      intro test
      unfold headIs
      cases x.commands with
      | nil => intro h; cases h
      | cons c cs => exact id
    exact ⟨fun h => head _ (fenced h), fun h => head _ (slot h), fun h => head _ (room h), fun h => absurd h open_.1, halted⟩
  · exact moved_of_same rfl rfl rfl rfl rfl

/-! ### Jobs carried on in their slots -/

/-- The second slot holds what the first holds as the queues see it: a job of the same queue and command, that is not
ACTIVE or DRAINING again, still in POSTING if it was, and with a new saturation count only if it can clamp (R97). -/
def Carried (x y : Option Job) : Prop :=
  (x = none → y = none) ∧ ∀ j, x = some j → ∃ k, y = some k ∧ k.queue = j.queue ∧ k.command = j.command ∧
    (k.isRunning = true → j.isRunning = true) ∧ (j.state = .posting → k.state = .posting) ∧
    (k.saturation ≠ 0 → j.saturation ≠ 0 ∨ canClamp j.command.work = true)

theorem Carried.refl (x : Option Job) : Carried x x := ⟨id, fun j h => ⟨j, h, rfl, rfl, id, id, .inl⟩⟩

theorem Carried.trans {x y z : Option Job} (h : Carried x y) (k : Carried y z) : Carried x z := by
  refine ⟨fun hx => k.1 (h.1 hx), fun j hj => ?_⟩
  obtain ⟨l, hl, lq, lc, lr, lp, ls⟩ := h.2 j hj
  obtain ⟨m, hm, mq, mc, mr, mp, ms⟩ := k.2 l hl
  exact ⟨m, hm, mq.trans lq, mc.trans lc, lr ∘ mr, mp ∘ lp, fun some => (ms some).elim ls fun can => .inr (lc ▸ can)⟩

theorem Carried.any {x y : Option Job} (h : Carried x y) {p : Job → Bool}
    (hp : ∀ j k : Job, k.queue = j.queue → k.command = j.command → p k = p j) : y.any p = x.any p := by
  cases x with
  | none => rw [h.1 rfl]
  | some j =>
    obtain ⟨k, rfl, kq, kc, -⟩ := h.2 j rfl
    exact hp j k kq kc

theorem Carried.isSome {x y : Option Job} (h : Carried x y) : y.isSome = x.isSome := by
  cases x with
  | none => rw [h.1 rfl]
  | some j =>
    obtain ⟨k, rfl, -⟩ := h.2 j rfl
    rfl

theorem Granted.carried {x y : Option Job} (h : Granted x y) : Carried x y := by
  refine ⟨h.1, fun j hj => ?_⟩
  obtain ⟨f, -, hy⟩ := h.2 j hj
  exact ⟨_, hy, rfl, rfl, id, id, .inl⟩

theorem carried_setSlot (s : State) (i k : SlotId) {x : Option Job} (h : Carried (s.slot i) x) :
    Carried (s.slot k) ((s.setSlot i x).slot k) := by
  rw [slot_setSlot]
  split
  · subst_vars
    exact h
  · exact .refl _

theorem carried_modJob (s : State) (i k : SlotId) {f : Job → Job} (h : ∀ j, Carried (some j) (some (f j))) :
    Carried (s.slot k) ((s.modJob i f).slot k) := by
  rw [slot_modJob]
  split
  · cases s.slot k with
    | none => exact .refl _
    | some j => exact h j
  · exact .refl _

/-! ### A shift: queues move, jobs are carried on -/

/-- No job enters or leaves a slot, and no tag is counted. -/
structure Shift (s t : State) : Prop where
  slots : ∀ k, Carried (s.slot k) (t.slot k)
  counts : ∀ g, (t.tag g).count = (s.tag g).count
  queues : ∀ q, Moved (s.queue q) (t.queue q)

theorem Shift.refl (s : State) : Shift s s := ⟨fun _ => .refl _, fun _ => rfl, fun _ => .refl _⟩

theorem Shift.trans (h : Shift s t) (k : Shift t u) : Shift s u :=
  ⟨fun i => (h.slots i).trans (k.slots i), fun g => (k.counts g).trans (h.counts g),
    fun q => (h.queues q).trans (k.queues q)⟩

/-- The posters on the wait list stay in their order, some leaving it, and those that stay can still post. -/
structure PostersKept (s t : State) : Prop where
  fifo : t.completion.fifo = s.completion.fifo
  waiters : t.completion.waiters.Sublist s.completion.waiters
  canPost : ∀ p ∈ t.completion.waiters, canPost s p = true → canPost t p = true

theorem PostersKept.refl (s : State) : PostersKept s s := ⟨rfl, List.Sublist.refl _, fun _ _ => id⟩

theorem PostersKept.trans (h : PostersKept s t) (k : PostersKept t u) : PostersKept s u :=
  ⟨k.fifo.trans h.fifo, k.waiters.trans h.waiters,
    fun p hp can => k.canPost p hp (h.canPost p (k.waiters.subset hp) can)⟩

theorem fifoSound_of_kept (h : PostersKept s t) (hs : FifoSound s) : FifoSound t := by
  obtain ⟨bound, full, nodup, can⟩ := hs
  refine ⟨h.fifo ▸ bound, fun ne => h.fifo ▸ full fun e => ne ?_, h.waiters.nodup nodup,
    fun p hp => h.canPost p hp (can p (h.waiters.subset hp))⟩
  exact List.sublist_nil.1 (e ▸ h.waiters)

/-! What one queue's move does to the state. -/

theorem canPost_slot_carried (h : Carried (s.slot i) (t.slot i)) (can : canPost s (.slot i) = true) :
    canPost t (.slot i) = true := by
  simp only [canPost, Option.any_eq_true, decide_eq_true_eq] at can ⊢
  obtain ⟨j, hj, posting⟩ := can
  obtain ⟨k, hk, -, -, -, kp, -⟩ := h.2 j hj
  exact ⟨k, hk, kp posting⟩

theorem canPost_queue_same (h : t.queue q = s.queue q) (can : canPost s (.queue q) = true) :
    canPost t (.queue q) = true := by
  simpa only [canPost, h] using can

theorem stalledRoom_of_canPost (can : canPost s (.queue q) = true) : (s.queue q).state = .stalledRoom := by
  simp only [canPost, Bool.and_eq_true, decide_eq_true_eq] at can
  exact can.1

theorem shift_modQueue (s : State) {f : Queue → Queue} (h : Moved (s.queue q) (f (s.queue q))) :
    Shift s (s.modQueue q f) := by
  refine ⟨fun k => .refl _, fun g => rfl, fun r => ?_⟩
  rw [queue_modQueue]
  split
  · subst_vars
    exact h
  · exact .refl _

theorem postersKept_modQueue (s : State) {f : Queue → Queue}
    (h : (s.queue q).state = .stalledRoom → (f (s.queue q)).state = .stalledRoom ∧
      ((s.queue q).commands ≠ [] → (f (s.queue q)).commands ≠ [])) : PostersKept s (s.modQueue q f) := by
  refine ⟨rfl, List.Sublist.refl _, fun p _ can => ?_⟩
  cases p with
  | slot i => exact can
  | queue r =>
    by_cases e : q = r
    · subst e
      obtain ⟨state, head⟩ := h (stalledRoom_of_canPost can)
      have := head (by simpa [canPost, stalledRoom_of_canPost can] using can)
      simpa [canPost, state] using this
    · exact canPost_queue_same (queue_modQueue_ne s q r f e) can

/-- A queue that leaves the wait list keeps every other poster waiting. -/
theorem postersKept_left (s : State) {x : Queue} :
    PostersKept s ((s.setQueue q x).setCompletion
      { s.completion with waiters := s.completion.waiters.filter (· ≠ .queue q) }) := by
  refine ⟨rfl, List.filter_sublist, fun p hp can => ?_⟩
  have ne : p ≠ .queue q := by simpa using (List.mem_filter.1 hp).2
  cases p with
  | slot i => exact can
  | queue r => exact canPost_queue_same (queue_setQueue_ne s q r x fun e => ne (e ▸ rfl)) can

theorem shift_haltQueue (s : State) (q : QueueId) (r : HaltReason) : Shift s (s.haltQueue q r) := by
  refine ⟨fun k => .refl _, fun g => rfl, fun p => ?_⟩
  rw [queue_haltQueue]
  split
  · subst_vars
    exact moved_halted _ r
  · exact .refl _

theorem postersKept_haltQueue (s : State) (q : QueueId) (r : HaltReason) : PostersKept s (s.haltQueue q r) :=
  have left := postersKept_left s (q := q) (x := { s.queue q with state := .halted, halt := some r })
  ⟨rfl, left.waiters, left.canPost⟩

theorem shift_reportJobFault (s : State) (q : QueueId) (f : JobFault) (n : BitVec 16) :
    Shift s (s.reportJobFault q f n) := by
  unfold State.reportJobFault
  split
  case h_1 => exact .refl s
  case h_2 => exact .refl s
  all_goals exact shift_haltQueue s q _

theorem postersKept_reportJobFault (s : State) (q : QueueId) (f : JobFault) (n : BitVec 16) :
    PostersKept s (s.reportJobFault q f n) := by
  unfold State.reportJobFault
  split
  case h_1 => exact .refl s
  case h_2 => exact .refl s
  all_goals exact postersKept_haltQueue s q _

theorem shift_evaluateFence (s : State) {c : HeldCommand} (hs : (s.queue q).state ≠ .halted)
    (fenced : Moved (s.queue q) ((s.queue q).withState .fenced)) : Shift s (s.evaluateFence q c) := by
  unfold State.evaluateFence
  split
  · split
    · exact shift_haltQueue s q _
    · exact shift_modQueue s (moved_passed hs)
  · exact shift_modQueue s fenced

theorem postersKept_evaluateFence (s : State) (c : HeldCommand) (hs : (s.queue q).state ≠ .stalledRoom) :
    PostersKept s (s.evaluateFence q c) := by
  unfold State.evaluateFence
  split
  · split
    · exact postersKept_haltQueue s q _
    · exact postersKept_modQueue s fun h => absurd h hs
  · exact postersKept_modQueue s fun h => absurd h hs

theorem shift_drainQueue (s : State) (g : TagId) (q : QueueId) : Shift s (s.drainQueue g q) := by
  unfold State.drainQueue
  split
  · rename_i fenced head
    split
    · refine shift_evaluateFence s (by rw [fenced]; exact nofun) ?_
      rw [withState_self fenced]
      exact .refl _
    · exact .refl s
  · exact .refl s

theorem postersKept_drainQueue (s : State) (g : TagId) (q : QueueId) : PostersKept s (s.drainQueue g q) := by
  unfold State.drainQueue
  split
  · rename_i fenced head
    split
    · exact postersKept_evaluateFence s _ (by rw [fenced]; exact nofun)
    · exact .refl s
  · exact .refl s

theorem drain_kept {R : State → State → Prop} (refl : ∀ s, R s s) (trans : ∀ {s t u}, R s t → R t u → R s u) (g : TagId)
    (each : ∀ s q, R s (s.drainQueue g q)) (s : State) : R s (s.drain g) := by
  unfold State.drain
  generalize List.finRange 4 = l
  induction l generalizing s with
  | nil => exact refl s
  | cons q l ih => exact trans (each s q) (ih _)

theorem shift_drain (s : State) (g : TagId) : Shift s (s.drain g) :=
  drain_kept Shift.refl Shift.trans g (fun s q => shift_drainQueue s g q) s

theorem postersKept_drain (s : State) (g : TagId) : PostersKept s (s.drain g) :=
  drain_kept PostersKept.refl PostersKept.trans g (fun s q => postersKept_drainQueue s g q) s

/-! ### A job leaves its slot -/

theorem drainQueue_slots (s : State) (g : TagId) (q : QueueId) :
    (s.drainQueue g q).slots = s.slots ∧ (s.drainQueue g q).interlock = s.interlock := by
  unfold State.drainQueue State.evaluateFence
  split
  · split_ifs <;> exact ⟨rfl, rfl⟩
  · exact ⟨rfl, rfl⟩

theorem drain_slots (s : State) (g : TagId) : (s.drain g).slots = s.slots ∧ (s.drain g).interlock = s.interlock :=
  drain_kept (R := fun s t => t.slots = s.slots ∧ t.interlock = s.interlock) (fun _ => ⟨rfl, rfl⟩)
    (fun h k => ⟨k.1.trans h.1, k.2.trans h.2⟩) g (fun s q => drainQueue_slots s g q) s

/-- The job has left its slot: its tag is released, its queue told, and no slot granted yet (R86, steps 2 to 4). -/
structure Vacated (s v : State) (i : SlotId) (j : Job) : Prop where
  slots : ∀ k, v.slot k = if i = k then none else s.slot k
  queues : ∀ q, ∃ x, Moved (s.queue q) x ∧ v.queue q = if j.queue = q then x.jobFreed else x
  counts : ∀ g, (v.tag g).count = if j.command.tag = some g then (s.tag g).count - 1 else (s.tag g).count
  posters : (j.state = .posting → .slot i ∉ s.completion.waiters) → PostersKept s v
  interlock : v.interlock = s.interlock

/-- The tag released, before the queue is told. -/
structure Released (s v : State) (g : Option TagId) : Prop where
  slots : v.slots = s.slots
  queues : ∀ q, Moved (s.queue q) (v.queue q)
  counts : ∀ x, (v.tag x).count = if g = some x then (s.tag x).count - 1 else (s.tag x).count
  posters : PostersKept s v
  interlock : v.interlock = s.interlock

theorem released_none (s : State) : Released s s none :=
  ⟨rfl, fun _ => .refl _, fun _ => rfl, .refl s, rfl⟩

theorem released_releaseTag (s : State) (g : TagId) (bad : Bool) : Released s (s.releaseTag g bad) (some g) := by
  have tag : ∀ (y : Tag) (_ : y.count = (s.tag g).count - 1) (x : TagId), ((s.setTag g y).tag x).count =
      if some g = some x then (s.tag x).count - 1 else (s.tag x).count := fun y hy x => by
    rw [tag_setTag]
    simp only [Option.some.injEq]
    split
    · subst_vars
      exact hy
    · rfl
  unfold State.releaseTag
  extract_lets u
  split
  · have shift := shift_drain u g
    have posters := postersKept_drain u g
    exact ⟨(drain_slots u g).1, shift.queues, fun x => (shift.counts x).trans (tag _ rfl x),
      ⟨posters.fifo, posters.waiters, posters.canPost⟩, (drain_slots u g).2⟩
  · exact ⟨rfl, fun _ => .refl _, tag _ rfl, ⟨rfl, List.Sublist.refl _, fun _ _ => id⟩, rfl⟩

theorem state_jobFreed (x : Queue) : x.jobFreed.state = x.state ∨ x.jobFreed.state = .stopped := by
  unfold Queue.jobFreed
  dsimp only
  split
  · exact .inr rfl
  · exact .inl rfl

theorem commands_jobFreed (x : Queue) : x.jobFreed.commands = x.commands := by
  unfold Queue.jobFreed
  dsimp only
  split <;> rfl

theorem postersKept_jobFreed (s : State) (q : QueueId) : PostersKept s (s.modQueue q Queue.jobFreed) := by
  refine postersKept_modQueue s fun room => ?_
  rw [jobFreed_of_not_aborting (by rw [room]; exact nofun)]
  exact ⟨room, id⟩

theorem postersKept_cleared (slot : s.slot i = some j) (away : j.state = .posting → .slot i ∉ s.completion.waiters) :
    PostersKept s (s.setSlot i none) := by
  refine ⟨rfl, List.Sublist.refl _, fun p hp can => ?_⟩
  cases p with
  | queue r => exact can
  | slot k =>
    by_cases e : i = k
    · subst e
      have posting : j.state = .posting := by simpa [canPost, slot] using can
      exact absurd hp (away posting)
    · rw [canPost, slot_setSlot_ne s i k none e]
      exact can

/-- A free is a job's leave of its slot, and the grant of the slot. -/
theorem freeSlot_vacates (slot : s.slot i = some j) : ∃ v, Vacated s v i j ∧ s.freeSlot i = v.grantSlot i := by
  have vacated : ∀ v, Released (s.setSlot i none) v j.command.tag → Vacated s (v.modQueue j.queue Queue.jobFreed) i j := by
    intro v h
    refine ⟨fun k => ?_, fun q => ⟨_, h.queues q, ?_⟩, h.counts, fun away => ?_, h.interlock⟩
    · rw [slot_modQueue, State.slot, h.slots]
      exact slot_setSlot s i k none
    · rw [queue_modQueue]
      split
      · subst_vars
        rfl
      · rfl
    · exact ((postersKept_cleared slot away).trans h.posters).trans (postersKept_jobFreed v _)
  unfold State.freeSlot
  rw [slot]
  refine ⟨_, vacated _ ?_, rfl⟩
  split
  · rename_i untagged
    rw [untagged]
    exact released_none _
  · rename_i g tagged
    rw [tagged]
    exact released_releaseTag _ g _

end Sys2Proof.Laws

/-!
PROOFS. The course of the engine's operations (chapters 04, 06, 08): each is a chain of changes to job records and the
interlock, reports of a fault to a queue, and finishes of jobs that are over.
-/

namespace Sys2Proof.Laws

open Sys2Proof.Machine Sys2Proof.Safety

variable {s t u : State} {q : QueueId} {i k : SlotId} {j l : Job}

/-- Job records are carried on; queues, tags and records are as they were. -/
structure Stirred (s t : State) : Prop where
  slots : ∀ k, Carried (s.slot k) (t.slot k)
  queues : t.queues = s.queues
  tags : t.tags = s.tags
  completion : t.completion = s.completion

theorem Stirred.refl (s : State) : Stirred s s := ⟨fun _ => .refl _, rfl, rfl, rfl⟩

theorem Stirred.trans (h : Stirred s t) (k : Stirred t u) : Stirred s u :=
  ⟨fun i => (h.slots i).trans (k.slots i), k.queues.trans h.queues, k.tags.trans h.tags,
    k.completion.trans h.completion⟩

theorem Stirred.queue (h : Stirred s t) (q : QueueId) : t.queue q = s.queue q := by
  rw [State.queue, h.queues]
  rfl

theorem Stirred.tag (h : Stirred s t) (g : TagId) : t.tag g = s.tag g := by
  rw [State.tag, h.tags]
  rfl

/-- A chain of the engine's operations. -/
inductive Course (s : State) : State → Prop
  | refl : Course s s
  | stir {t u : State} (before : Course s t) (stirred : Stirred t u) : Course s u
  | fault {t : State} (before : Course s t) (q : QueueId) (f : JobFault) (n : BitVec 16) :
      Course s (t.reportJobFault q f n)
  | finish {t : State} (before : Course s t) (i : SlotId) : Course s (t.finishIfOver i)

theorem Course.trans (h : Course s t) (k : Course t u) : Course s u := by
  induction k with
  | refl => exact h
  | stir _ stirred ih => exact ih.stir stirred
  | fault _ q f n ih => exact ih.fault q f n
  | finish _ i ih => exact ih.finish i

theorem course_of_stirred (h : Stirred s t) : Course s t := Course.refl.stir h

/-- A property that each of the engine's operations keeps is kept by their course. -/
theorem kept_by_course {P : State → Prop} (stir : ∀ {t u}, Stirred t u → P t → P u)
    (fault : ∀ {t} q f n, P t → P (t.reportJobFault q f n)) (finish : ∀ {t} i, P t → P (t.finishIfOver i))
    (hs : P s) (h : Course s t) : P t := by
  induction h with
  | refl => exact hs
  | stir _ stirred ih => exact stir stirred ih
  | fault _ q f n ih => exact fault q f n ih
  | finish _ i ih => exact finish i ih

/-! ### Job records -/

theorem carried_some (hq : l.queue = j.queue) (hc : l.command = j.command) (hr : l.isRunning = true → j.isRunning = true)
    (hp : j.state = .posting → l.state = .posting)
    (hn : l.saturation ≠ 0 → j.saturation ≠ 0 ∨ canClamp j.command.work = true) : Carried (some j) (some l) :=
  ⟨nofun, fun m hm => by cases hm; exact ⟨l, rfl, hq, hc, hr, hp, hn⟩⟩

theorem carried_same_state (hq : l.queue = j.queue) (hc : l.command = j.command) (hs : l.state = j.state)
    (hn : l.saturation ≠ 0 → j.saturation ≠ 0 ∨ canClamp j.command.work = true) : Carried (some j) (some l) :=
  carried_some hq hc (by simp only [Job.isRunning, hs]; exact id) (fun h => hs.trans h) hn

theorem not_posting_of_running (h : j.isRunning = true) : j.state ≠ .posting := by
  intro e
  simp [Job.isRunning, e] at h

theorem carried_ending (hj : j.state ≠ .posting) (hq : l.queue = j.queue) (hc : l.command = j.command)
    (hs : l.state = .ending) (hn : l.saturation = j.saturation) : Carried (some j) (some l) :=
  carried_some hq hc (fun h => by simp [Job.isRunning, hs] at h) (fun h => absurd h hj) fun some => .inl (hn ▸ some)

theorem stirred_setSlot (slot : s.slot i = some j) (h : Carried (some j) (some l)) :
    Stirred s (s.setSlot i (some l)) :=
  ⟨fun k => carried_setSlot s i k (slot ▸ h), rfl, rfl, rfl⟩

theorem stirred_of_slotsAndLocks (h : SlotsAndLocks s t) (slots : ∀ k, Carried (s.slot k) (t.slot k)) : Stirred s t :=
  ⟨slots, h.queues, h.tags, h.completion⟩

theorem stirred_modJob (s : State) (i : SlotId) {f : Job → Job} (h : ∀ j, Carried (some j) (some (f j))) :
    Stirred s (s.modJob i f) :=
  stirred_of_slotsAndLocks (slotsAndLocks_modJob s i f) fun k => carried_modJob s i k h

theorem stirred_releaseEntry (s : State) (i : SlotId) (n : Nat) : Stirred s (s.releaseEntry i n) :=
  stirred_of_slotsAndLocks (slotsAndLocks_releaseEntry s i n) fun k => (granted_releaseEntry s i n k).carried

theorem stirred_removeBurst (s : State) (i : SlotId) (n : Nat) : Stirred s (s.removeBurst i n) := by
  refine Stirred.trans ?_ (stirred_releaseEntry _ i n)
  exact stirred_modJob s i fun _ => carried_same_state rfl rfl rfl .inl

theorem stirred_removeBursts (i : SlotId) (m : List Burst) (v : State) :
    Stirred v (m.foldl (fun t b => t.removeBurst i b.index) v) := by
  induction m generalizing v with
  | nil => exact Stirred.refl v
  | cons b m ih => exact (stirred_removeBurst v i b.index).trans (ih _)

theorem stirred_applyEnding (slot : s.slot i = some j) (hj : j.state ≠ .posting) (hq : l.queue = j.queue)
    (hc : l.command = j.command) (hn : l.saturation = j.saturation) : Stirred s (s.applyEnding i l) := by
  have entered : Stirred s (s.setSlot i (some { l with state := .ending, bursts := withdrawn l.bursts })) :=
    stirred_setSlot slot (carried_ending hj hq hc rfl hn)
  have dropped : ∀ v x, Stirred v (v.setInterlock x) := fun v x => ⟨fun _ => .refl _, rfl, rfl, rfl⟩
  exact (entered.trans (dropped _ _)).trans (stirred_removeBursts i ((withdrawn l.bursts).filter Burst.endsAtEnding) _)

/-! ### The operations -/

theorem course_endBurst (s : State) (i : SlotId) (n : Nat) : Course s (s.endBurst i n) :=
  (course_of_stirred (stirred_removeBurst s i n)).finish i

theorem course_endBurstWell (s : State) (i : SlotId) (n : Nat) : Course s (s.endBurstWell i n) := by
  refine Course.trans (course_of_stirred ?_) (course_endBurst _ i n)
  exact stirred_modJob s i fun _ => carried_same_state rfl rfl rfl .inl

theorem course_firstFault (slot : s.slot i = some j) (running : j.isRunning = true) (hq : l.queue = j.queue)
    (hc : l.command = j.command) (hn : l.saturation = j.saturation) (f : PlacedFault) : Course s (s.firstFault i l f) := by
  have slot' : (s.reportJobFault l.queue f.fault l.seq).slot i = some j := by
    rw [← slot]
    unfold State.reportJobFault
    split <;> rfl
  refine Course.finish (Course.stir (Course.refl.fault l.queue f.fault l.seq) ?_) i
  exact stirred_applyEnding slot' (not_posting_of_running running) hq hc hn

theorem course_awaitOrEnd (slot : s.slot i = some j) (c : Burst) : Course s (s.awaitOrEnd i j c) := by
  have put : Stirred s (s.setSlot i (some (j.putBurst c))) := stirred_setSlot slot (carried_same_state rfl rfl rfl .inl)
  unfold State.awaitOrEnd
  dsimp only
  split
  · exact course_of_stirred put
  · exact (course_of_stirred put).trans (course_endBurst _ i _)

/-- Only an operator that can clamp counts a clamp (R97). -/
theorem combined_clamps (b : Burst) (work : Work) : (b.combined work).2 = 0 ∨ canClamp work = true := by
  have orderFree : ∀ op : Op, OrderFree op ∨ (op = .adds ∨ op = .addu) := fun op => by
    by_cases hs : op = .adds
    · exact .inr (.inl hs)
    · by_cases hu : op = .addu
      · exact .inr (.inr hu)
      · exact .inl (orderFree_of_ne hs hu)
  have sources : ∀ {op : Op}, OrderFree op → ∀ w ds, (foldSources op w ds).2 = 0 := fun free w ds => by
    cases ds with
    | nil => rfl
    | cons d ds => exact foldBursts_clamps free w d ds
  unfold Burst.combined
  cases work with
  | accum op w _ _ =>
    refine (orderFree op).imp (fun free => ?_) fun can => by simpa [canClamp] using can
    simp [foldOldDestination, clampsBurst_of_orderFree free]
  | merge op w accumulate _ _ _ =>
    refine (orderFree op).imp (fun free => ?_) fun can => by simpa [canClamp] using can
    cases accumulate with
    | true => simp [foldOldDestination, clampsBurst_of_orderFree free, sources free]
    | false => simp [sources free]
  | copy | fill | spread | tabload => exact .inl rfl

theorem saturation_combined (b : Burst) (h : addSaturation j.saturation (b.combined j.command.work).2 ≠ 0) :
    j.saturation ≠ 0 ∨ canClamp j.command.work = true := by
  refine (combined_clamps b j.command.work).imp_left fun none e => h ?_
  rw [none, e]
  rfl

theorem course_combine (slot : s.slot i = some j) (b : Burst) : Course s (s.combine i j b) := by
  unfold State.combine
  dsimp only
  split
  · generalize loadGroup s.segments _ b.index _ = x
    have loaded : Stirred s { s with segments := x } := ⟨fun _ => .refl _, rfl, rfl, rfl⟩
    exact (course_of_stirred loaded).trans (course_endBurstWell _ i _)
  all_goals
    exact course_of_stirred (stirred_setSlot slot (carried_same_state rfl rfl rfl (saturation_combined b)))

theorem course_readReturns (slot : s.slot i = some j) (b : Burst) (r : ReadRequest) (o : ReadOutcome) :
    Course s (s.readReturns i j b r o) := by
  unfold State.readReturns
  split
  · split
    · dsimp only
      split
      · exact course_combine slot _
      · exact course_of_stirred (stirred_setSlot slot (carried_same_state rfl rfl rfl .inl))
    · exact course_awaitOrEnd slot _
  · split
    · rename_i good
      exact course_firstFault (l := j.putBurst (b.failRead r)) slot (Bool.and_eq_true_iff.1 good).1 rfl rfl rfl _
    · exact course_awaitOrEnd slot _

theorem course_writeDone (slot : s.slot i = some j) (b : Burst) (w : WriteRequest) : Course s (s.writeDone i j b w) := by
  have put : Stirred s (s.setSlot i (some (j.putBurst (b.setWrite w .done)))) :=
    stirred_setSlot slot (carried_same_state rfl rfl rfl .inl)
  unfold State.writeDone
  dsimp only
  split
  · exact (course_of_stirred put).trans (course_endBurstWell _ i _)
  · exact course_of_stirred put

theorem course_writeFails (slot : s.slot i = some j) (b : Burst) (f : PlacedFault) :
    Course s (s.writeFails i j b f) := by
  unfold State.writeFails
  split
  · exact course_firstFault (l := j.putBurst { b with failed := true }) slot ‹_› rfl rfl rfl f
  · exact course_endBurst s i _

theorem owner_slot {o : BusyId} {b : Burst} (h : s.owner o = some (j, b)) :
    s.slot o.slot = some j ∧ j.bursts.find? (fun c => c.index = o.burst) = some b := by
  unfold State.owner at h
  split at h
  · cases h
  · rename_i slot
    split at h
    · cases h
    · rename_i burst
      cases h
      exact ⟨slot, burst⟩

theorem course_deliver (s : State) (o : BusyId) (x : ExtOutcome) : Course s (s.deliver o x) := by
  unfold State.deliver
  split
  · exact .refl
  · rename_i owner
    obtain ⟨slot, -⟩ := owner_slot owner
    split
    · split
      · exact .refl
      · exact course_readReturns slot _ _ _
    · split
      · exact .refl
      · split
        · exact course_writeDone slot _ _
        · exact course_writeFails slot _ _

theorem addBurst_running (active : j.state = .active) (b : Burst) : (j.addBurst b).isRunning = true := by
  unfold Job.addBurst Job.isRunning
  split <;> simp [active]

theorem carried_addBurst (active : j.state = .active) {c : Option Cursor} (b : Burst) :
    Carried (some j) (some (Job.addBurst { j with cursor := c } b)) :=
  carried_some rfl rfl (fun _ => by simp [Job.isRunning, active]) (fun h => by rw [active] at h; cases h) .inl

theorem stirred_placeBurst (slot : s.slot i = some j) (active : j.state = .active) {c : Option Cursor}
    (src dst : List Place) : Stirred s (s.placeBurst i { j with cursor := c } src dst) := by
  have added : ∀ b, Stirred s (s.setSlot i (some (Job.addBurst { j with cursor := c } b))) := fun b =>
    stirred_setSlot slot (carried_addBurst active b)
  have locked : ∀ b x, Stirred s ((s.setSlot i (some (Job.addBurst { j with cursor := c } b))).setInterlock x) :=
    fun b x => (added b).trans ⟨fun _ => .refl _, rfl, rfl, rfl⟩
  unfold State.placeBurst State.requestLock
  dsimp only
  split
  · exact added _
  · split
    · split
      · split
        · exact locked _ _
        · exact locked _ _
      · exact added _
    · exact added _

theorem course_issueBurst (slot : s.slot i = some j) (may : j.mayIssue = true) : Course s (s.issueBurst i j) := by
  obtain ⟨active, -, -⟩ := (mayIssue_iff j).1 may
  unfold State.issueBurst
  dsimp only
  split
  · have running : j.isRunning = true := by simp [Job.isRunning, active]
    refine course_firstFault slot running ?_ ?_ ?_ _ <;> rfl
  · exact course_of_stirred (stirred_placeBurst slot active _ _)

/-- A cancel changes nothing, or puts a running job of its queue in ENDING and finishes it if it is over. -/
theorem cancelJob_cases (s : State) (q : QueueId) (i : SlotId) :
    ((∀ j, s.slot i = some j → j.queue = q → j.isRunning = false) ∧ State.cancelJob q s i = s) ∨
      ∃ j, s.slot i = some j ∧ j.queue = q ∧ j.isRunning = true ∧
        State.cancelJob q s i = (s.applyEnding i { j with status := some .cancelled }).finishIfOver i := by
  unfold State.cancelJob
  split
  · rename_i free
    exact .inl ⟨fun j hj => (nomatch free.symm.trans hj), rfl⟩
  · rename_i j slot
    split
    · rename_i mine
      exact .inr ⟨j, slot, mine.1, mine.2, rfl⟩
    · rename_i other
      refine .inl ⟨fun k hk hq => ?_, rfl⟩
      rw [slot] at hk
      cases hk
      exact Bool.eq_false_iff.2 fun running => other ⟨hq, running⟩

theorem course_cancelJob (s : State) (q : QueueId) (i : SlotId) : Course s (State.cancelJob q s i) := by
  rcases cancelJob_cases s q i with ⟨-, e⟩ | ⟨j, slot, -, running, e⟩
  · rw [e]
    exact .refl
  · rw [e]
    refine Course.finish (course_of_stirred ?_) i
    exact stirred_applyEnding slot (not_posting_of_running running) rfl rfl rfl

theorem course_cancels (q : QueueId) (l : List SlotId) (s : State) : Course s (l.foldl (State.cancelJob q) s) := by
  induction l generalizing s with
  | nil => exact .refl
  | cons i l ih => exact (course_cancelJob s q i).trans (ih _)

/-! ### The finish -/

/-- A job with its status settled. -/
def Job.settled (j : Job) : Job := { j with status := some j.settledStatus }

/-- What a finish of a job that is over comes to: its record waits for room, or is posted, or is not needed; in the last
two cases the slot is freed. -/
theorem finishIfOver_cases (s : State) (i : SlotId) :
    (s.finishIfOver i = s ∧ ∀ j, s.slot i = some j → j.isOver = false) ∨ ∃ j, s.slot i = some j ∧ j.isOver = true ∧
      ((s.hasRoom = false ∧ needsRecord j.command.report j.settledStatus = true ∧
          s.finishIfOver i = (s.setSlot i (some { Job.settled j with state := .posting })).joinWaiters (.slot i)) ∨
        (s.hasRoom = true ∧
          s.finishIfOver i = ((s.setSlot i (some (Job.settled j))).post (Job.record (Job.settled j))).freeSlot i) ∨
        s.finishIfOver i = (s.setSlot i (some (Job.settled j))).freeSlot i) := by
  unfold State.finishIfOver
  split
  · rename_i free
    exact .inl ⟨rfl, fun j hj => (nomatch free.symm.trans hj)⟩
  · rename_i j slot
    split
    · rename_i isOver
      refine .inr ⟨j, slot, isOver, ?_⟩
      unfold State.finishJob
      dsimp only
      split
      · rename_i needed
        split
        · rename_i room
          exact .inr (.inl ⟨room, rfl⟩)
        · rename_i full
          exact .inl ⟨Bool.eq_false_iff.2 full, needed, rfl⟩
      · exact .inr (.inr rfl)
    · rename_i more
      exact .inl ⟨rfl, fun k hk => Option.some.inj (slot.symm.trans hk) ▸ Bool.eq_false_iff.2 more⟩

theorem over_not_posting (h : j.isOver = true) : j.state ≠ .posting := by
  obtain ⟨-, draining | ending⟩ := (isOver_iff j).1 h
  · rw [draining]
    exact nofun
  · rw [ending]
    exact nofun

end Sys2Proof.Laws

/-!
PROOFS. The completion FIFO and its wait list (chapter 10): every happening keeps them sound.
-/

namespace Sys2Proof.Laws

open Sys2Proof.Machine Sys2Proof.Safety

variable {s t u : State} {q : QueueId} {i k : SlotId} {j : Job} {stores : Bool}

/-! ### A job enters a slot -/

/-- A job has entered a slot from the head of its queue (R30, R31, R46, R62). -/
structure Entered (s t : State) (i : SlotId) (q : QueueId) (seq : BitVec 16) (c : JobCommand) : Prop where
  slots : ∀ k, t.slot k = if i = k then some (Job.enter q seq c) else s.slot k
  queues : ∀ r, t.queue r =
    if q = r then { (s.queue r).pop.withState .running with jobs := (s.queue r).jobs + 1 } else s.queue r
  counts : ∀ g, (t.tag g).count = if c.tag = some g then (s.tag g).count + 1 else (s.tag g).count
  completion : t.completion = s.completion
  interlock : t.interlock = s.interlock

theorem entered_enterSlot (s : State) (i : SlotId) (q : QueueId) (seq : BitVec 16) (c : JobCommand) :
    Entered s (s.enterSlot i q seq c) i q seq c := by
  refine ⟨slot_enterSlot s i q seq c, queue_enterSlot s i q seq c, fun g => ?_, enterSlot_completion s i q seq c,
    enterSlot_interlock s i q seq c⟩
  rw [tag_enterSlot]
  split <;> rfl

/-- A grant changes nothing, and no queue waits with a job at its head; or the job at the head of a queue that waits
enters the slot. -/
theorem grantSlot_entered (s : State) (i : SlotId) :
    ((∀ q, s.slotWaiter q = none) ∧ s.grantSlot i = s) ∨
      ∃ q c cs j, (s.queue q).state = .stalledSlot ∧ (s.queue q).commands = c :: cs ∧ c.parts.job = some j ∧
        Entered s (s.grantSlot i) i q c.seq j := by
  rcases grantSlot_cases s i with none | ⟨q, c, cs, j, stalled, head, job, e⟩
  · exact .inl none
  · have entered := entered_enterSlot s i q c.seq j
    rw [e]
    exact .inr ⟨q, c, cs, j, stalled, head, job,
      ⟨entered.slots, entered.queues, entered.counts, entered.completion, entered.interlock⟩⟩

theorem postersKept_entered {seq : BitVec 16} {c : JobCommand} (h : Entered s t i q seq c) (free : s.slot i = none)
    (hq : (s.queue q).state ≠ .stalledRoom) : PostersKept s t := by
  refine ⟨congrArg _ h.completion, h.completion ▸ List.Sublist.refl _, fun p _ can => ?_⟩
  cases p with
  | slot k =>
    have ne : i ≠ k := fun e => by
      subst e
      simp [canPost, free] at can
    simpa only [canPost, h.slots, if_neg ne] using can
  | queue r =>
    have ne : q ≠ r := fun e => hq (e ▸ stalledRoom_of_canPost can)
    exact canPost_queue_same ((h.queues r).trans (if_neg ne)) can

theorem postersKept_freeSlot (slot : s.slot i = some j)
    (away : j.state = .posting → .slot i ∉ s.completion.waiters) : PostersKept s (s.freeSlot i) := by
  obtain ⟨v, vacated, e⟩ := freeSlot_vacates slot
  rw [e]
  refine (vacated.posters away).trans ?_
  rcases grantSlot_entered v i with ⟨-, e⟩ | ⟨q, c, cs, l, stalled, -, -, entered⟩
  · rw [e]
    exact .refl v
  · refine postersKept_entered entered ((vacated.slots i).trans (if_pos rfl)) ?_
    rw [stalled]
    exact nofun

/-! ### Sound posting -/

theorem PostersKept.setInterrupts (h : PostersKept s t) (x : Interrupts) : PostersKept s (t.setInterrupts x) :=
  ⟨h.fifo, h.waiters, h.canPost⟩

theorem postersKept_stirred (h : Stirred s t) : PostersKept s t := by
  refine ⟨congrArg _ h.completion, h.completion ▸ List.Sublist.refl _, fun p _ can => ?_⟩
  cases p with
  | slot k => exact canPost_slot_carried (h.slots k) can
  | queue r => exact canPost_queue_same (h.queue r) can

theorem fifoSound_post (room : s.hasRoom = true) (r : Record) : FifoSound (s.post r) := by
  obtain ⟨short, none⟩ := (hasRoom_iff s).1 room
  have waiters : (s.post r).completion.waiters = [] := none
  refine ⟨?_, fun ne => absurd waiters ne, by rw [waiters]; exact List.nodup_nil, fun p hp => ?_⟩
  · show (s.completion.fifo ++ [r]).length ≤ 64
    rw [List.length_append, List.length_singleton]
    exact short
  · rw [waiters] at hp
    cases hp

theorem fifoSound_join (h : FifoSound s) (full : s.hasRoom = false) {p : Poster} (new : p ∉ s.completion.waiters)
    (can : canPost s p = true) : FifoSound (s.joinWaiters p) := by
  obtain ⟨bound, waiting, nodup, all⟩ := h
  refine ⟨bound, fun _ => ?_, ?_, fun x hx => ?_⟩
  · by_contra short
    have room : s.hasRoom = true := (hasRoom_iff s).2
      ⟨Nat.lt_of_le_of_ne bound short, by_contra fun ne => short (waiting ne)⟩
    rw [full] at room
    cases room
  · exact List.nodup_append.2 ⟨nodup, List.nodup_singleton p, fun a ha b hb e =>
      new (List.mem_singleton.1 hb ▸ e ▸ ha)⟩
  · rcases List.mem_append.1 hx with hx | hx
    · exact all x hx
    · rw [List.mem_singleton.1 hx]
      exact can

theorem fifoSound_finishIfOver (h : FifoSound s) (i : SlotId) : FifoSound (s.finishIfOver i) := by
  rcases finishIfOver_cases s i with ⟨e, -⟩ | ⟨j, slot, isOver, ⟨full, -, e⟩ | ⟨room, e⟩ | e⟩
  · rw [e]
    exact h
  · have idle := over_not_posting isOver
    rw [e]
    have set : PostersKept s (s.setSlot i (some { Job.settled j with state := .posting })) :=
      postersKept_stirred (stirred_setSlot slot
        (carried_some rfl rfl nofun (fun posting => absurd posting idle) .inl))
    refine fifoSound_join (fifoSound_of_kept set h) full (fun waits => ?_) ?_
    · have := h.2.2.2 _ waits
      simp [canPost, slot, idle] at this
    · simp [canPost]
  · have idle := over_not_posting isOver
    have set : PostersKept s (s.setSlot i (some (Job.settled j))) :=
      postersKept_stirred (stirred_setSlot slot (carried_same_state rfl rfl rfl .inl))
    rw [e]
    refine fifoSound_of_kept (postersKept_freeSlot (slot_setSlot_self s i _) fun posting => absurd posting idle) ?_
    exact fifoSound_post (s := s.setSlot i _) room _
  · have idle := over_not_posting isOver
    have set : PostersKept s (s.setSlot i (some (Job.settled j))) :=
      postersKept_stirred (stirred_setSlot slot (carried_same_state rfl rfl rfl .inl))
    rw [e]
    exact fifoSound_of_kept (postersKept_freeSlot (slot_setSlot_self s i _) fun posting => absurd posting idle)
      (fifoSound_of_kept set h)

theorem fifoSound_course (hs : FifoSound s) (h : Course s t) : FifoSound t :=
  kept_by_course (fun stirred => fifoSound_of_kept (postersKept_stirred stirred))
    (fun q f n => fifoSound_of_kept (postersKept_reportJobFault _ q f n)) (fun i hs => fifoSound_finishIfOver hs i) hs h

/-! ### The take -/

theorem decode_kind {p : Parts} {x : XSize} :
    (∀ m b, p.decode x = .ok (.wait m b) → p.kind = 3) ∧ (∀ m b, p.decode x = .ok (.note m b) → p.kind = 4) := by
  have three : p.kind.toNat = 3 → p.kind = 3 := fun h => BitVec.eq_of_toNat_eq h
  have four : p.kind.toNat = 4 → p.kind = 4 := fun h => BitVec.eq_of_toNat_eq h
  unfold Parts.decode
  refine ⟨fun m b h => ?_, fun m b h => ?_⟩
  · split at h
    · split at h
      · cases h
      · split_ifs at h
        cases h
    · split at h <;> cases h
    · exact three ‹_›
    · cases h
    · cases h
  · split at h
    · split at h
      · cases h
      · split_ifs at h
        cases h
    · split at h <;> cases h
    · cases h
    · exact four ‹_›
    · cases h

/-- What the take of a head comes to. -/
theorem takeCommand_cases (s : State) (q : QueueId) (c : HeldCommand) :
    (∃ r, s.takeCommand q c = s.haltQueue q r) ∨
    (∃ j, c.parts.decode s.ext.xsize = .ok (.job j) ∧
      ((∃ i, s.slot i = none ∧ s.takeCommand q c = s.enterSlot i q c.seq j) ∨
        (∀ i, (s.slot i).isSome = true) ∧ s.takeCommand q c = s.modQueue q fun x => x.withState .stalledSlot)) ∨
    (c.parts.kind = 3 ∧ s.takeCommand q c = s.evaluateFence q c) ∨
    (c.parts.kind = 4 ∧
      ((s.hasRoom = true ∧ s.takeCommand q c = s.postNote q c) ∨
        (s.hasRoom = false ∧
          s.takeCommand q c = (s.modQueue q fun x => x.withState .stalledRoom).joinWaiters (.queue q)))) := by
  unfold State.takeCommand
  split
  · exact .inl ⟨_, rfl⟩
  · rename_i j decoded
    refine .inr (.inl ⟨j, decoded, ?_⟩)
    unfold State.carryOutJob State.freeSlotIndex
    split
    · rename_i i found
      exact .inl ⟨i, by simpa using List.find?_some found, rfl⟩
    · rename_i none
      refine .inr ⟨fun i => ?_, rfl⟩
      have := List.find?_eq_none.1 none i (List.mem_finRange i)
      cases h : s.slot i with
      | none => simp [h] at this
      | some j => rfl
  · rename_i decoded
    exact .inr (.inr (.inl ⟨decode_kind.1 _ _ decoded, rfl⟩))
  · rename_i decoded
    refine .inr (.inr (.inr ⟨decode_kind.2 _ _ decoded, ?_⟩))
    unfold State.carryOutNote
    split
    · exact .inl ⟨‹_›, rfl⟩
    · exact .inr ⟨Bool.eq_false_iff.2 ‹_›, rfl⟩

theorem fifoSound_take (h : FifoSound s) {c : HeldCommand} {cs : List HeldCommand}
    (running : (s.queue q).state = .running) (head : (s.queue q).commands = c :: cs) : FifoSound (s.takeCommand q c) := by
  have noRoom : (s.queue q).state ≠ .stalledRoom := by
    rw [running]
    exact nofun
  have moved : ∀ f, PostersKept s (s.modQueue q f) := fun f => postersKept_modQueue s fun room => absurd room noRoom
  rcases takeCommand_cases s q c with
    ⟨r, e⟩ | ⟨j, -, ⟨i, free, e⟩ | ⟨-, e⟩⟩ | ⟨-, e⟩ | ⟨-, ⟨room, e⟩ | ⟨full, e⟩⟩
  · rw [e]
    exact fifoSound_of_kept (postersKept_haltQueue s q r) h
  · rw [e]
    exact fifoSound_of_kept (postersKept_entered (entered_enterSlot s i q _ j) free noRoom) h
  · rw [e]
    exact fifoSound_of_kept (moved _) h
  · rw [e]
    exact fifoSound_of_kept (postersKept_evaluateFence s c noRoom) h
  · rw [e]
    have posted := fifoSound_post room (.note q c.seq c.parts.mark)
    have left : PostersKept (s.post (.note q c.seq c.parts.mark))
        ((s.post (.note q c.seq c.parts.mark)).modQueue q fun x => x.pop.withState .running) :=
      postersKept_modQueue _ fun room => absurd room noRoom
    exact fifoSound_of_kept (left.setInterrupts _) posted
  · rw [e]
    refine fifoSound_join (fifoSound_of_kept (moved _) h) full (fun waits => ?_) ?_
    · exact noRoom (stalledRoom_of_canPost (h.2.2.2 _ waits))
    · simp [canPost, Queue.withState, head]

/-! ### The pop -/

/-- The oldest poster has left the list, and a record stands in the room that a pop made. -/
theorem fifoSound_given (h : FifoSound s) {r x : Record} {rest : List Record} {p : Poster} {ws : List Poster}
    (fifo : s.completion.fifo = r :: rest) (waiters : s.completion.waiters = p :: ws) (view : Option Record) :
    FifoSound (s.setCompletion { fifo := rest ++ [x], waiters := ws, view := view }) ∧ p ∉ ws := by
  obtain ⟨bound, full, nodup, can⟩ := h
  have full := full (waiters ▸ List.cons_ne_nil _ _)
  have same : (rest ++ [x]).length = s.completion.fifo.length := by simp [fifo]
  rw [waiters] at nodup
  obtain ⟨new, nodup⟩ := List.nodup_cons.1 nodup
  exact ⟨⟨same ▸ bound, fun _ => same.trans full, nodup, fun y hy => can y (waiters ▸ List.mem_cons_of_mem _ hy)⟩, new⟩

theorem postersKept_modQueue_away (s : State) (f : Queue → Queue) (away : .queue q ∉ s.completion.waiters) :
    PostersKept s (s.modQueue q f) := by
  refine ⟨rfl, List.Sublist.refl _, fun p hp can => ?_⟩
  cases p with
  | slot i => exact can
  | queue r => exact canPost_queue_same (queue_modQueue_ne s q r f fun e => away (e ▸ hp)) can

theorem fifoSound_pop (h : FifoSound s) : FifoSound s.popRecord := by
  cases fifo : s.completion.fifo with
  | nil =>
    rw [popRecord_empty fifo]
    exact h
  | cons r rest =>
    cases waiters : s.completion.waiters with
    | nil =>
      obtain ⟨bound, -⟩ := h
      rw [fifo, List.length_cons] at bound
      rw [popRecord_alone fifo waiters]
      refine ⟨Nat.le_of_succ_le bound, fun ne => absurd waiters ne, ?_, fun p hp => ?_⟩
      · show s.completion.waiters.Nodup
        rw [waiters]
        exact List.nodup_nil
      · have : p ∈ s.completion.waiters := hp
        rw [waiters] at this
        cases this
    | cons p ws =>
      have can := h.2.2.2 p (waiters ▸ List.mem_cons_self)
      cases p with
      | queue q =>
        cases head : (s.queue q).commands with
        | nil => simp [canPost, head] at can
        | cons c cs =>
          obtain ⟨given, away⟩ := fifoSound_given (x := .note q c.seq c.parts.mark) h fifo waiters (some r)
          rw [popRecord_note fifo waiters head]
          exact fifoSound_of_kept ((postersKept_modQueue_away _ _ away).setInterrupts _) given
      | slot i =>
        cases slot : s.slot i with
        | none => simp [canPost, slot] at can
        | some j =>
          obtain ⟨given, away⟩ := fifoSound_given (x := j.record) h fifo waiters (some r)
          rw [popRecord_job fifo waiters slot]
          exact fifoSound_of_kept (postersKept_freeSlot (s := s.setCompletion _) slot fun _ => away) given

/-! ### The control commands -/

theorem fifoSound_modQueue (h : FifoSound s) {f : Queue → Queue}
    (room : (s.queue q).state = .stalledRoom → (f (s.queue q)).state = .stalledRoom ∧
      ((s.queue q).commands ≠ [] → (f (s.queue q)).commands ≠ [])) : FifoSound (s.modQueue q f) :=
  fifoSound_of_kept (postersKept_modQueue s room) h

theorem commands_push {x : Queue} {p : Parts} (h : x.commands ≠ []) :
    (x.push p).state = x.state ∧ (x.push p).commands ≠ [] := by
  unfold Queue.push
  split
  · exact ⟨rfl, by simp⟩
  · exact ⟨rfl, h⟩

theorem state_push (x : Queue) (p : Parts) : (x.push p).state = x.state := by
  unfold Queue.push
  split <;> rfl

theorem fifoSound_stop (h : FifoSound s) (q : QueueId) : FifoSound (s.stopQueue q) := by
  have left := postersKept_left s (q := q) (x := ((s.queue q).withState .stopped).judged .accepted)
  have left : FifoSound ((s.modQueue q fun x => (x.withState .stopped).judged .accepted).leaveWaiters q) :=
    fifoSound_of_kept ⟨left.fifo, left.waiters, left.canPost⟩ h
  have judged : ∀ r, FifoSound (s.modQueue q fun x => x.judged r) := fun r => fifoSound_modQueue h fun room => ⟨room, id⟩
  unfold State.stopQueue
  split
  case h_5 => exact judged _
  case h_6 => exact judged _
  case h_7 => exact judged _
  all_goals exact left

/-- A queue as ABORT leaves it before its jobs are cancelled. -/
def discarded (s : State) (q : QueueId) : State := (s.modQueue q Queue.discard).leaveWaiters q

theorem queue_discarded (s : State) (q : QueueId) : (discarded s q).queue q = (s.queue q).discard :=
  queue_modQueue_self s q Queue.discard

theorem abortQueue_aborting (h : (s.queue q).state = .aborting) : s.abortQueue q = s.modQueue q fun x => x.judged .accepted := by
  simp only [State.abortQueue, h]

theorem abortQueue_eq (h : (s.queue q).state ≠ .aborting) :
    s.abortQueue q = ((List.finRange 8).foldl (State.cancelJob q) (discarded s q)).modQueue q fun x =>
      if x.jobs = 0 then x else x.withState .aborting := by
  unfold State.abortQueue
  split
  · exact absurd ‹_› h
  all_goals rfl

/-- A cancel only counts for a queue that is at rest. -/
theorem queue_cancelJob_resting {r : QueueId} (h : Resting (s.queue r)) (i : SlotId) :
    ∃ n, (State.cancelJob q s i).queue r = { s.queue r with jobs := n } := by
  rcases cancelJob_cases s q i with ⟨-, e⟩ | ⟨j, -, -, -, e⟩
  · exact ⟨_, by rw [e]⟩
  · have keep := (slotsAndLocks_applyEnding s i { j with status := some .cancelled }).queue r
    rw [e]
    unfold State.finishIfOver
    split
    · exact ⟨_, keep⟩
    · split
      · obtain ⟨n, hn⟩ := queue_finishJob_resting (s := s.applyEnding i { j with status := some .cancelled })
          (by rw [keep]; exact h) i _
        exact ⟨n, hn.trans (by rw [keep])⟩
      · exact ⟨_, keep⟩

theorem queue_cancels_resting {r : QueueId} (l : List SlotId) (h : Resting (s.queue r)) :
    ∃ n, (l.foldl (State.cancelJob q) s).queue r = { s.queue r with jobs := n } := by
  induction l generalizing s with
  | nil => exact ⟨_, rfl⟩
  | cons i l ih =>
    obtain ⟨n, hn⟩ := queue_cancelJob_resting (q := q) h i
    obtain ⟨m, hm⟩ := ih (s := State.cancelJob q s i) (by rw [hn]; exact h)
    exact ⟨m, hm.trans (by rw [hn])⟩

/-- The queue that ABORT names, once its jobs are cancelled. -/
theorem queue_cancels_discarded (s : State) (q : QueueId) (l : List SlotId) :
    ∃ n, (l.foldl (State.cancelJob q) (discarded s q)).queue q = { (s.queue q).discard with jobs := n } := by
  obtain ⟨n, hn⟩ := queue_cancels_resting (q := q) (s := discarded s q) (r := q) l
    (by rw [queue_discarded]; exact ⟨nofun, nofun, nofun⟩)
  exact ⟨n, hn.trans (by rw [queue_discarded])⟩

theorem fifoSound_abort (h : FifoSound s) (q : QueueId) : FifoSound (s.abortQueue q) := by
  by_cases aborting : (s.queue q).state = .aborting
  · rw [abortQueue_aborting aborting]
    exact fifoSound_modQueue h fun room => ⟨room, id⟩
  · have left := postersKept_left s (q := q) (x := (s.queue q).discard)
    have discarded : FifoSound (discarded s q) := fifoSound_of_kept ⟨left.fifo, left.waiters, left.canPost⟩ h
    obtain ⟨n, hn⟩ := queue_cancels_discarded s q (List.finRange 8)
    rw [abortQueue_eq aborting]
    refine fifoSound_modQueue (fifoSound_course discarded (course_cancels q _ _)) fun room => ?_
    rw [hn] at room
    cases room

/-! ### Every step -/

/-- An offer only changes the burst whose request is sent, the ID and the pointer. -/
theorem stirred_offerRequest (d : ReqId) (b : Burst) (slot : s.slot i = some j) : Stirred s (s.offerRequest d i j b) := by
  have sent : ∀ c n role x, Stirred s ((s.setSlot i (some (j.putBurst c))).giveId d i n role x) := fun c n role x => by
    have put : Stirred s (s.setSlot i (some (j.putBurst c))) := stirred_setSlot slot (carried_same_state rfl rfl rfl .inl)
    exact ⟨put.slots, put.queues, put.tags, put.completion⟩
  unfold State.offerRequest
  split
  · exact sent _ _ _ _
  · split
    · exact sent _ _ _ _
    · exact .refl s

theorem fifoSound_cleared (h : t.completion = { fifo := [], waiters := [], view := none }) : FifoSound t := by
  simp [FifoSound, h]

theorem happening_fifoSound (hs : FifoSound s) (h : Happening s stores t) : FifoSound t := by
  have same : ∀ {t : State}, t.completion = s.completion → t.queues = s.queues → t.slots = s.slots → FifoSound t :=
    fun {t} c q l => by
      have quiet : Stirred s { t with tags := s.tags } :=
        ⟨fun k => by simpa only [State.slot, l] using Carried.refl _, q, rfl, c⟩
      have kept := postersKept_stirred quiet
      exact fifoSound_of_kept ⟨kept.fifo, kept.waiters, kept.canPost⟩ hs
  cases h with
  | commit q =>
    exact fifoSound_modQueue hs fun room => ⟨(state_push _ _).trans room, fun some => (commands_push some).2⟩
  | start q => exact fifoSound_modQueue hs fun room => by simp only [room]; exact ⟨room, id⟩
  | stop q => exact fifoSound_stop hs q
  | resume q => exact fifoSound_modQueue hs fun room => by simp only [room]; exact ⟨room, id⟩
  | skip q => exact fifoSound_modQueue hs fun room => by simp only [room]; exact ⟨room, id⟩
  | abort q => exact fifoSound_abort hs q
  | refuse q => exact fifoSound_modQueue hs fun room => ⟨room, id⟩
  | take q c cs running head => exact fifoSound_take hs running head
  | issue i j slot may => exact fifoSound_course hs (course_issueBurst slot may)
  | bankRead p i j b r c k slot =>
    exact fifoSound_course (s := s.setBankPointer p i) (same rfl rfl rfl) (course_readReturns (s := s.setBankPointer p i) slot b r _)
  | bankWrite p i j b w c k slot =>
    exact fifoSound_course (s := { s.setBankPointer p i with memory := s.memory.writeBurst c k w.words })
      (same rfl rfl rfl) (course_writeDone (s := { s.setBankPointer p i with memory := s.memory.writeBurst c k w.words }) slot b w)
  | offer d i j b none free choice =>
    exact fifoSound_of_kept (postersKept_stirred (stirred_offerRequest d b (arbitrate_sound choice).1)) hs
  | answer d b x o =>
    exact fifoSound_course (s := s.setReqId d x) (same rfl rfl rfl) (course_deliver _ b o)
  | clear g v =>
    unfold State.writeTag
    split
    · exact same rfl rfl rfl
    · exact hs
  | icplth v =>
    unfold State.writeIcplth
    split
    · exact same rfl rfl rfl
    · exact hs
  | pop => exact fifoSound_pop hs
  | softReset => exact fifoSound_cleared rfl
  | pinReset => exact fifoSound_cleared rfl
  | _ => exact same rfl rfl rfl

/-! ### The threshold -/

theorem happening_thresholdSound (hs : ThresholdSound s) (h : Happening s stores t) : ThresholdSound t := by
  have same : ∀ {t : State}, t.interrupts.threshold = s.interrupts.threshold → ThresholdSound t := fun e => by
    unfold ThresholdSound
    rw [e]
    exact hs
  cases h with
  | stop q =>
    unfold State.stopQueue
    split <;> exact hs
  | abort q => exact same (outside_abortQueue s q).threshold
  | take q c => exact same (outside_takeCommand s q c).threshold
  | issue i j => exact same (outside_issueBurst s i j).threshold
  | bankRead p i j b r => exact same (outside_readReturns (s.setBankPointer p i) i j b r _).threshold
  | bankWrite p i j b w c k =>
    exact same (outside_writeDone { s.setBankPointer p i with memory := s.memory.writeBurst c k w.words } i j b w).threshold
  | offer d i j b =>
    unfold State.offerRequest
    split
    · exact hs
    · split <;> exact hs
  | answer d b x o => exact same (outside_deliver (s.setReqId d x) b o).threshold
  | clear g v =>
    unfold State.writeTag
    split <;> exact hs
  | icplth v =>
    unfold State.writeIcplth
    split
    · exact ‹1 ≤ v.toNat ∧ v.toNat ≤ 64›
    · exact hs
  | pop =>
    unfold State.popRecord
    split
    · exact hs
    · exact same (outside_giveRoom (s.setCompletion _)).threshold
  | pinReset => exact ⟨Nat.le_refl 1, Nat.le_of_ble_eq_true rfl⟩
  | _ => exact hs

/-- Settles O58. -/
theorem postingKept : Obligations.PostingKept :=
  ⟨fun _ _ => kept_by_step (fun _ _ => id) happening_fifoSound,
    fun _ _ => kept_by_step (fun _ _ => id) happening_thresholdSound⟩

end Sys2Proof.Laws

/-!
PROOFS. The queues, their counts and the tags (chapters 02, 03): every happening, as the queues and slots see it, and what it
keeps of them.
-/

namespace Sys2Proof.Laws

open Sys2Proof.Machine Sys2Proof.Safety

variable {s t u v : State} {q : QueueId} {i k : SlotId} {j : Job} {stores : Bool}

/-! ### Courses as shifts and frees -/

theorem shift_stirred (h : Stirred s t) : Shift s t :=
  ⟨h.slots, fun g => by rw [h.tag], fun q => by rw [h.queue]; exact .refl _⟩

theorem shift_of_same (queues : t.queues = s.queues) (slots : t.slots = s.slots) (tags : ∀ g, (t.tag g).count = (s.tag g).count) :
    Shift s t :=
  ⟨fun k => by simpa only [State.slot, slots] using Carried.refl _, tags,
    fun q => by simpa only [State.queue, queues] using Moved.refl _⟩

theorem shift_setCompletion (s : State) (x : Completion) : Shift s (s.setCompletion x) :=
  shift_of_same rfl rfl fun _ => rfl

/-- A finish is a shift, or a shift and then the free of the slot. -/
theorem finishIfOver_shift (s : State) (i : SlotId) : ∃ u, Shift s u ∧
    (s.finishIfOver i = u ∨ ∃ j, u.slot i = some j ∧ s.finishIfOver i = u.freeSlot i) := by
  have set : ∀ {j : Job} (x : Completion), s.slot i = some j →
      Shift s ((s.setSlot i (some (Job.settled j))).setCompletion x) := fun {j} x slot => by
    have put : Stirred s (s.setSlot i (some (Job.settled j))) := stirred_setSlot slot (carried_same_state rfl rfl rfl .inl)
    exact (shift_stirred put).trans (shift_setCompletion _ x)
  rcases finishIfOver_cases s i with ⟨e, -⟩ | ⟨j, slot, isOver, ⟨-, -, e⟩ | ⟨-, e⟩ | e⟩
  · exact ⟨s, .refl s, .inl e⟩
  · refine ⟨_, ?_, .inl e⟩
    have idle := over_not_posting isOver
    have posting : Stirred s (s.setSlot i (some { Job.settled j with state := .posting })) :=
      stirred_setSlot slot (carried_some rfl rfl nofun (fun posting => absurd posting idle) .inl)
    exact (shift_stirred posting).trans (shift_setCompletion _ _)
  · exact ⟨_, set { s.completion with fifo := s.completion.fifo ++ [Job.record (Job.settled j)] } slot,
      .inr ⟨_, slot_setSlot_self s i _, e⟩⟩
  · exact ⟨_, set s.completion slot, .inr ⟨_, slot_setSlot_self s i _, e⟩⟩

/-- A property that shifts and frees keep is kept by a course. -/
theorem kept_by_engine {P : State → Prop} (shift : ∀ {t u}, Shift t u → P t → P u)
    (free : ∀ {t i j}, t.slot i = some j → P t → P (t.freeSlot i)) (hs : P s) (h : Course s t) : P t := by
  refine kept_by_course (fun stirred => shift (shift_stirred stirred)) (fun q f n => shift (shift_reportJobFault _ q f n))
    (fun {t} i ht => ?_) hs h
  obtain ⟨u, moved, e | ⟨j, slot, e⟩⟩ := finishIfOver_shift t i
  · exact e ▸ shift moved ht
  · exact e ▸ free slot (shift moved ht)

/-- A property that the leave of a job and the entry of another keep is kept by a free. -/
theorem kept_by_free {P : State → Prop} (vacate : ∀ {v}, Vacated s v i j → P s → P v)
    (enter : ∀ {v t q c cs l}, v.slot i = none → (v.queue q).state = .stalledSlot → (v.queue q).commands = c :: cs →
      c.parts.job = some l → Entered v t i q c.seq l → P v → P t)
    (slot : s.slot i = some j) (hs : P s) : P (s.freeSlot i) := by
  obtain ⟨v, vacated, e⟩ := freeSlot_vacates slot
  have hv := vacate vacated hs
  rw [e]
  rcases grantSlot_entered v i with ⟨-, e⟩ | ⟨q, c, cs, l, stalled, head, job, entered⟩
  · rw [e]
    exact hv
  · exact enter ((vacated.slots i).trans (if_pos rfl)) stalled head job entered hv

/-! ### Every happening, as the queues and slots see it -/

/-- What a happening comes to, as far as the queues, the counts of the tags and the slots go. -/
inductive Effect (s t : State) : Prop
  | course {u : State} (shift : Shift s u) (course : Course u t)
  | enter (i : SlotId) (q : QueueId) (c : HeldCommand) (cs : List HeldCommand) (j : JobCommand) (free : s.slot i = none)
      (running : (s.queue q).state = .running) (head : (s.queue q).commands = c :: cs) (job : c.parts.job = some j)
      (entered : Entered s t i q c.seq j)
  | stall (q : QueueId) (c : HeldCommand) (cs : List HeldCommand) (j : JobCommand)
      (running : (s.queue q).state = .running) (head : (s.queue q).commands = c :: cs) (job : c.parts.job = some j)
      (bound : 1 ≤ j.count ∧ j.count ≤ 8192) (full : ∀ i, (s.slot i).isSome = true)
      (stalled : t = s.modQueue q fun x => x.withState .stalledSlot)
  | note (q : QueueId) (ws : List Poster) (first : s.completion.waiters = .queue q :: ws)
      (shift : Shift (s.modQueue q fun x => x.pop.withState .running) t)
  | free {u : State} (i : SlotId) (j : Job) (shift : Shift s u) (slot : u.slot i = some j) (freed : t = u.freeSlot i)
  | abort {u v : State} (q : QueueId) (shift : Shift s u) (course : Course u v) (stopped : (v.queue q).state = .stopped)
      (empty : (v.queue q).commands = []) (quiet : ∀ i j, v.slot i = some j → j.queue = q → j.isRunning = false)
      (aborted : t = v.modQueue q fun x => if x.jobs = 0 then x else x.withState .aborting)
  | reset (queues : ∀ q, t.queue q = Queue.reset) (slots : ∀ i, t.slot i = none) (tags : ∀ g, (t.tag g).count = 0)

theorem effect_shift (h : Shift s t) : Effect s t := .course h .refl

/-! The jobs of the queue that ABORT names. -/

/-- The slot holds no running job of the queue. -/
def QuietSlot (q : QueueId) (i : SlotId) (s : State) : Prop := ∀ j, s.slot i = some j → j.queue = q → j.isRunning = false

theorem quietSlot_carried (h : Carried (s.slot i) (t.slot i)) (hs : QuietSlot q i s) : QuietSlot q i t := by
  intro k hk hq
  cases slot : s.slot i with
  | none =>
    rw [h.1 slot] at hk
    cases hk
  | some j =>
    obtain ⟨l, hl, lq, -, lr, -⟩ := h.2 j slot
    rw [hl] at hk
    cases hk
    exact Bool.eq_false_iff.2 fun running => Bool.eq_false_iff.1 (hs j slot (lq ▸ hq)) (lr running)

theorem state_of_vacated (h : Vacated s v i j) (q : QueueId) :
    ((v.queue q).state = .stalledSlot → (s.queue q).state = .stalledSlot) ∧
      ((v.queue q).state = .aborting → (s.queue q).state = .aborting) := by
  obtain ⟨x, moved, e⟩ := h.queues q
  have freed : ∀ {st : QueueState}, st ≠ .stopped → (v.queue q).state = st → x.state = st := fun ne hst => by
    rw [e] at hst
    split at hst
    · rcases state_jobFreed x with same | stopped
      · exact same ▸ hst
      · exact absurd (hst.symm.trans stopped) ne
    · exact hst
  exact ⟨fun h => moved.stalled (freed nofun h), fun h => moved.aborting (freed nofun h)⟩

/-- A free lets no job of a queue that does not wait for a slot run. -/
theorem quietSlot_freeSlot (slot : s.slot k = some j) (hq : (s.queue q).state ≠ .stalledSlot) (hs : QuietSlot q i s) :
    QuietSlot q i (s.freeSlot k) := by
  obtain ⟨v, vacated, e⟩ := freeSlot_vacates slot
  have hv : QuietSlot q i v := fun l hl => by
    rw [vacated.slots] at hl
    split at hl
    · cases hl
    · exact hs l hl
  rw [e]
  rcases grantSlot_entered v k with ⟨-, e⟩ | ⟨r, c, cs, l, stalled, -, -, entered⟩
  · rw [e]
    exact hv
  · intro m hm mine
    rw [entered.slots] at hm
    split at hm
    · cases hm
      have : r = q := mine
      exact absurd ((state_of_vacated vacated q).1 (this ▸ stalled)) hq
    · exact hv m hm mine

theorem quietSlot_finishIfOver (hq : (s.queue q).state ≠ .stalledSlot) (hs : QuietSlot q i s) :
    QuietSlot q i (s.finishIfOver k) := by
  obtain ⟨u, shift, e | ⟨j, slot, e⟩⟩ := finishIfOver_shift s k
  · exact e ▸ quietSlot_carried (shift.slots i) hs
  · exact e ▸ quietSlot_freeSlot slot (fun stalled => hq ((shift.queues q).stalled stalled))
      (quietSlot_carried (shift.slots i) hs)

theorem quietSlot_setSlot_ended {l : Job} (ended : l.state = .ending) : QuietSlot q i (s.setSlot i (some l)) := by
  intro m hm _
  rw [slot_setSlot_self] at hm
  cases hm
  simp [Job.isRunning, ended]

theorem carried_applyEnding_after (s : State) (i : SlotId) (l : Job) (k : SlotId) :
    Carried ((s.setSlot i (some { l with state := .ending, bursts := withdrawn l.bursts })).slot k)
      ((s.applyEnding i l).slot k) := by
  have stirred := stirred_removeBursts i ((withdrawn l.bursts).filter Burst.endsAtEnding)
    ((s.setSlot i (some { l with state := .ending, bursts := withdrawn l.bursts })).setInterlock
      { s.interlock with waiters := s.interlock.waiters.filter fun w => w.slot ≠ i })
  exact stirred.slots k

theorem quietSlot_cancelJob (resting : Resting (s.queue q)) :
    QuietSlot q i (State.cancelJob q s i) ∧ ∀ k, QuietSlot q k s → QuietSlot q k (State.cancelJob q s i) := by
  rcases cancelJob_cases s q i with ⟨quiet, e⟩ | ⟨j, slot, hq, running, e⟩
  · rw [e]
    exact ⟨quiet, fun _ => id⟩
  · have queue := (slotsAndLocks_applyEnding s i { j with status := some .cancelled }).queue q
    have hq : ((s.applyEnding i { j with status := some .cancelled }).queue q).state ≠ .stalledSlot := by
      rw [queue]
      exact resting.2.1
    have stirred : Stirred s (s.applyEnding i { j with status := some .cancelled }) :=
      stirred_applyEnding slot (not_posting_of_running running) rfl rfl rfl
    rw [e]
    refine ⟨quietSlot_finishIfOver hq ?_, fun k hk => quietSlot_finishIfOver hq (quietSlot_carried (stirred.slots k) hk)⟩
    exact quietSlot_carried (carried_applyEnding_after s i _ i) (quietSlot_setSlot_ended rfl)

/-- Once its jobs are cancelled, no job of the queue runs. -/
theorem quietSlot_cancels (l : List SlotId) (resting : Resting (s.queue q)) :
    (∀ i ∈ l, QuietSlot q i (l.foldl (State.cancelJob q) s)) ∧
      ∀ i, QuietSlot q i s → QuietSlot q i (l.foldl (State.cancelJob q) s) := by
  induction l generalizing s with
  | nil => exact ⟨fun i hi => (nomatch hi), fun _ => id⟩
  | cons k l ih =>
    obtain ⟨n, hn⟩ := queue_cancelJob_resting (q := q) resting k
    obtain ⟨quiet, kept⟩ := quietSlot_cancelJob (i := k) resting
    obtain ⟨all, keep⟩ := ih (s := State.cancelJob q s k) (by rw [hn]; exact resting)
    refine ⟨fun i hi => ?_, fun i hi => keep i (kept i hi)⟩
    rcases List.mem_cons.1 hi with rfl | hi
    · exact keep _ quiet
    · exact all i hi

/-! The happenings. -/

theorem shift_discarded (s : State) (q : QueueId) : Shift s (discarded s q) := by
  have moved : Moved (s.queue q) (s.queue q).discard :=
    ⟨rfl, nofun, nofun, queueOrdered_of_suffix List.nil_suffix rfl, fun _ => queueSound_idle (.inl rfl) rfl⟩
  exact (shift_modQueue s moved).trans (shift_setCompletion _ _)

theorem effect_abort (s : State) (q : QueueId) : Effect s (s.abortQueue q) := by
  by_cases aborting : (s.queue q).state = .aborting
  · rw [abortQueue_aborting aborting]
    exact effect_shift (shift_modQueue s (moved_judged _ _))
  · obtain ⟨n, hn⟩ := queue_cancels_discarded s q (List.finRange 8)
    have resting : Resting ((discarded s q).queue q) := by
      rw [queue_discarded]
      exact ⟨nofun, nofun, nofun⟩
    refine .abort q (shift_discarded s q) (course_cancels q (List.finRange 8) _) ?_ ?_ (fun i => ?_) (abortQueue_eq aborting)
    · rw [hn]
      rfl
    · rw [hn]
      rfl
    · exact (quietSlot_cancels (List.finRange 8) resting).1 i (List.mem_finRange i)

theorem effect_start (s : State) (q : QueueId) : Effect s (s.startQueue q) := by
  refine effect_shift (shift_modQueue s ?_)
  split
  · rename_i stopped
    exact ⟨rfl, nofun, nofun, queueOrdered_of_suffix List.suffix_rfl rfl,
      fun h => queueSound_idle (.inr rfl) (halt_none (x := s.queue q) h (by rw [stopped]; exact nofun))⟩
  all_goals exact moved_judged _ _

theorem effect_stop (s : State) (q : QueueId) : Effect s (s.stopQueue q) := by
  have judged : ∀ r, Effect s (s.modQueue q fun x => x.judged r) := fun r =>
    effect_shift (shift_modQueue s (moved_judged _ r))
  have left : (s.queue q).state ≠ .halted →
      Effect s ((s.modQueue q fun x => (x.withState .stopped).judged .accepted).leaveWaiters q) := fun h => by
    have stopped : Shift s (s.modQueue q fun x => (x.withState .stopped).judged .accepted) :=
      shift_modQueue s (moved_stopped h .accepted)
    exact effect_shift (stopped.trans (shift_setCompletion _ _))
  unfold State.stopQueue
  split
  case h_5 => exact judged _
  case h_6 => exact judged _
  case h_7 => exact judged _
  all_goals
    rename_i state
    exact left (by rw [state]; exact nofun)

/-- A queue that leaves HALTED for RUNNING, without its halt reason (R37, R38). -/
theorem moved_resumed {x y : Queue} (hj : y.jobs = x.jobs) (hs : y.state = .running) (hc : y.commands <:+ x.commands)
    (hn : y.nextSeq = x.nextSeq) (hh : y.halt = none) : Moved x y :=
  ⟨hj, fun h => (nomatch hs.symm.trans h), fun h => (nomatch hs.symm.trans h), queueOrdered_of_suffix hc hn,
    fun _ => queueSound_idle (.inr hs) hh⟩

theorem effect_resume (s : State) (q : QueueId) : Effect s (s.resumeQueue q) := by
  refine effect_shift (shift_modQueue s ?_)
  split
  · exact moved_resumed rfl rfl List.suffix_rfl rfl rfl
  all_goals exact moved_judged _ _

theorem effect_skip (s : State) (q : QueueId) : Effect s (s.skipQueue q) := by
  refine effect_shift (shift_modQueue s ?_)
  split
  · exact moved_resumed rfl rfl (List.tail_suffix _) rfl rfl
  all_goals exact moved_judged _ _

theorem decode_job {p : Parts} {x : XSize} {l : JobCommand} (h : p.decode x = .ok (.job l)) :
    p.job = some l ∧ 1 ≤ l.count ∧ l.count ≤ 8192 := by
  unfold Parts.decode at h
  unfold Parts.job
  split at h
  · rename_i kind
    simp only [kind]
    split at h
    · cases h
    · rename_i form
      split_ifs at h with bound
      cases h
      exact ⟨form, by omega⟩
  · rename_i kind
    simp only [kind]
    split at h
    · cases h
    · rename_i form
      cases h
      obtain ⟨-, -, -, -, -, count, least, most⟩ := tabloadForm_eq_some form
      exact ⟨form, by omega⟩
  · cases h
  · cases h
  · cases h

theorem headIs_cons {x : Queue} {c : HeldCommand} {cs : List HeldCommand} (head : x.commands = c :: cs)
    (p : Parts → Bool) : headIs x p = p c.parts := by
  simp [headIs, head]

theorem effect_take {c : HeldCommand} {cs : List HeldCommand} (running : (s.queue q).state = .running)
    (head : (s.queue q).commands = c :: cs) : Effect s (s.takeCommand q c) := by
  have notHalted : (s.queue q).state ≠ .halted := by
    rw [running]
    exact nofun
  rcases takeCommand_cases s q c with
    ⟨r, e⟩ | ⟨j, decoded, ⟨i, free, e⟩ | ⟨full, e⟩⟩ | ⟨kind, e⟩ | ⟨kind, ⟨-, e⟩ | ⟨-, e⟩⟩
  · exact e ▸ effect_shift (shift_haltQueue s q r)
  · exact e ▸ .enter i q c cs j free running head (decode_job decoded).1 (entered_enterSlot s i q c.seq j)
  · exact .stall q c cs j running head (decode_job decoded).1 (decode_job decoded).2 full e
  · exact e ▸ effect_shift (shift_evaluateFence s notHalted
      (moved_fenced notHalted ((headIs_cons head _).trans (decide_eq_true kind))))
  · rw [e]
    have posted : Shift s (s.post (.note q c.seq c.parts.mark)) := shift_setCompletion s _
    have popped : Shift (s.post (.note q c.seq c.parts.mark))
        ((s.post (.note q c.seq c.parts.mark)).modQueue q fun x => x.pop.withState .running) :=
      shift_modQueue _ (moved_passed notHalted)
    exact effect_shift ((posted.trans popped).trans (shift_of_same rfl rfl fun _ => rfl))
  · rw [e]
    have stalled : Shift s (s.modQueue q fun x => x.withState .stalledRoom) :=
      shift_modQueue s (moved_stalledRoom notHalted ((headIs_cons head _).trans (decide_eq_true kind)))
    exact effect_shift (stalled.trans (shift_setCompletion _ _))

theorem effect_pop (s : State) : Effect s s.popRecord := by
  cases fifo : s.completion.fifo with
  | nil => exact effect_shift (popRecord_empty fifo ▸ shift_setCompletion s _)
  | cons r rest =>
    cases waiters : s.completion.waiters with
    | nil => exact effect_shift (popRecord_alone fifo waiters ▸ shift_setCompletion s _)
    | cons p ws =>
      cases p with
      | queue q =>
        cases head : (s.queue q).commands with
        | nil =>
          simp only [State.popRecord, fifo, State.giveRoom, setCompletion_completion, waiters, State.postNow,
            queue_setCompletion, head]
          exact effect_shift ((shift_setCompletion s _).trans (shift_setCompletion _ _))
        | cons c cs =>
          rw [popRecord_note fifo waiters head]
          exact .note q ws waiters (shift_of_same rfl rfl fun _ => rfl)
      | slot i =>
        cases slot : s.slot i with
        | none =>
          simp only [State.popRecord, fifo, State.giveRoom, setCompletion_completion, waiters, State.postNow,
            slot_setCompletion, slot]
          exact effect_shift ((shift_setCompletion s _).trans (shift_setCompletion _ _))
        | some j =>
          rw [popRecord_job fifo waiters slot]
          exact .free i j (shift_setCompletion s { fifo := rest ++ [j.record], waiters := ws, view := some r }) slot rfl

/-- Every happening, as the queues and slots see it. -/
theorem happening_effect (h : Happening s stores t) : Effect s t := by
  have same : ∀ {t : State}, t.queues = s.queues → t.slots = s.slots → t.tags = s.tags → Effect s t := fun q l g =>
    effect_shift (shift_of_same q l fun x => by rw [State.tag, g]; rfl)
  cases h with
  | commit q => exact effect_shift (shift_modQueue s (moved_push _ _))
  | start q => exact effect_start s q
  | stop q => exact effect_stop s q
  | resume q => exact effect_resume s q
  | skip q => exact effect_skip s q
  | abort q => exact effect_abort s q
  | refuse q => exact effect_shift (shift_modQueue s (moved_judged _ _))
  | take q c cs running head => exact effect_take running head
  | issue i j slot may => exact .course (.refl s) (course_issueBurst slot may)
  | bankRead p i j b r c k slot =>
    exact .course (u := s.setBankPointer p i) (shift_of_same rfl rfl fun _ => rfl)
      (course_readReturns (s := s.setBankPointer p i) slot b r _)
  | bankWrite p i j b w c k slot =>
    exact .course (u := { s.setBankPointer p i with memory := s.memory.writeBurst c k w.words })
      (shift_of_same rfl rfl fun _ => rfl)
      (course_writeDone (s := { s.setBankPointer p i with memory := s.memory.writeBurst c k w.words }) slot b w)
  | offer d i j b none free choice =>
    exact effect_shift (shift_stirred (stirred_offerRequest d b (arbitrate_sound choice).1))
  | answer d b x o =>
    exact .course (u := s.setReqId d x) (shift_of_same rfl rfl fun _ => rfl) (course_deliver _ b o)
  | clear g v =>
    unfold State.writeTag
    split
    · refine effect_shift (shift_of_same rfl rfl fun x => ?_)
      rw [tag_setTag]
      split
      · subst_vars
        rfl
      · rfl
    · exact effect_shift (.refl s)
  | icplth v =>
    unfold State.writeIcplth
    split
    · exact same rfl rfl rfl
    · exact effect_shift (.refl s)
  | pop => exact effect_pop s
  | softReset => exact .reset queue_reset slot_reset fun g => congrArg Tag.count (tag_reset g)
  | pinReset => exact .reset queue_reset slot_reset fun g => congrArg Tag.count (tag_reset g)
  | _ => exact same rfl rfl rfl

end Sys2Proof.Laws

/-!
PROOFS. The counts of jobs and tags, and the order and meaning of the queues (chapters 02, 03): every step keeps them.
-/

namespace Sys2Proof.Laws

open Sys2Proof.Machine Sys2Proof.Safety

variable {s t u v : State} {q : QueueId} {i k : SlotId} {j : Job} {seq : BitVec 16} {c : JobCommand} {stores : Bool}

/-! ### Counting slots -/

theorem countP_update {n : Nat} {l : List (Fin n)} {i : Fin n} {f g : Fin n → Bool} (nodup : l.Nodup) (hi : i ∈ l)
    (same : ∀ k, i ≠ k → g k = f k) : l.countP g + (f i).toNat = l.countP f + (g i).toNat := by
  induction l with
  | nil => cases hi
  | cons a l ih =>
    obtain ⟨ha, nodup⟩ := List.nodup_cons.1 nodup
    simp only [List.countP_cons]
    by_cases e : i = a
    · subst e
      have rest : l.countP g = l.countP f := List.countP_congr fun k hk => by
        rw [same k fun e => ha (e ▸ hk)]
      rw [rest]
      cases f i <;> cases g i <;> simp
    · rw [same a e]
      have := ih nodup ((List.mem_cons.1 hi).resolve_left e)
      omega

/-- One slot's new content changes a count by that slot alone. -/
theorem jobsWith_update {x : Option Job} (slots : ∀ k, t.slot k = if i = k then x else s.slot k) (p : Job → Bool) :
    jobsWith t p + ((s.slot i).any p).toNat = jobsWith s p + (x.any p).toNat := by
  have := countP_update (f := fun k => (s.slot k).any p) (g := fun k => (t.slot k).any p) (List.nodup_finRange 8)
    (List.mem_finRange i) fun k hk => by rw [slots, if_neg hk]
  rw [slots i, if_pos rfl] at this
  exact this

theorem jobsWith_carried (slots : ∀ k, Carried (s.slot k) (t.slot k)) {p : Job → Bool}
    (hp : ∀ j k : Job, k.queue = j.queue → k.command = j.command → p k = p j) : jobsWith t p = jobsWith s p :=
  List.countP_congr fun k _ => by rw [(slots k).any hp]

/-! ### The counts -/

/-- The counts of jobs and of tags, and a job in a slot for every ABORTING queue. -/
def CountsSound (s : State) : Prop := JobsCounted s ∧ TagsCounted s ∧ AbortingHasJobs s

theorem countsSound_shift (h : Shift s t) (hs : CountsSound s) : CountsSound t := by
  obtain ⟨jobs, tags, aborting⟩ := hs
  refine ⟨fun q => ?_, fun g => ?_, fun q hq => ?_⟩
  · rw [(h.queues q).jobs, jobs]
    exact (jobsWith_carried h.slots fun j k hq _ => by rw [hq]).symm
  · rw [h.counts, tags]
    exact (jobsWith_carried h.slots fun j k _ hc => by rw [hc]).symm
  · rw [(h.queues q).jobs]
    exact aborting q ((h.queues q).aborting hq)

theorem jobs_jobFreed (x : Queue) : x.jobFreed.jobs = x.jobs - 1 := by
  unfold Queue.jobFreed
  dsimp only
  split <;> rfl

theorem aborting_jobFreed {x : Queue} (h : x.jobFreed.state = .aborting) : x.state = .aborting ∧ x.jobs - 1 ≠ 0 := by
  unfold Queue.jobFreed at h
  dsimp only at h
  split at h
  · cases h
  · rename_i more
    exact ⟨h, fun e => more ⟨h, e⟩⟩

theorem countsSound_vacated (slot : s.slot i = some j) (h : Vacated s v i j) (hs : CountsSound s) : CountsSound v := by
  obtain ⟨jobs, tags, aborting⟩ := hs
  refine ⟨fun q => ?_, fun g => ?_, fun q hq => ?_⟩
  · have count := jobsWith_update h.slots fun l => decide (l.queue = q)
    simp only [slot, Option.any_some, Option.any_none, Bool.toNat_false, ← jobs q] at count
    obtain ⟨x, moved, e⟩ := h.queues q
    by_cases mine : j.queue = q
    · rw [e, if_pos mine, jobs_jobFreed, moved.jobs]
      simp only [mine, decide_true, Bool.toNat_true] at count
      omega
    · rw [e, if_neg mine, moved.jobs]
      simp only [mine, decide_false, Bool.toNat_false] at count
      omega
  · have count := jobsWith_update h.slots fun l => decide (l.command.tag = some g)
    simp only [slot, Option.any_some, Option.any_none, Bool.toNat_false, ← tags g] at count
    rw [h.counts]
    by_cases mine : j.command.tag = some g
    · rw [if_pos mine]
      simp only [mine, decide_true, Bool.toNat_true] at count
      omega
    · rw [if_neg mine]
      simp only [mine, decide_false, Bool.toNat_false] at count
      omega
  · obtain ⟨x, moved, e⟩ := h.queues q
    rw [e] at hq ⊢
    split at hq
    · obtain ⟨state, more⟩ := aborting_jobFreed hq
      rw [if_pos ‹_›, jobs_jobFreed]
      omega
    · rw [if_neg ‹_›, moved.jobs]
      exact aborting q (moved.aborting hq)

theorem countsSound_entered (free : s.slot i = none) (h : Entered s t i q seq c) (hs : CountsSound s) :
    CountsSound t := by
  obtain ⟨jobs, tags, aborting⟩ := hs
  refine ⟨fun r => ?_, fun g => ?_, fun r hr => ?_⟩
  · have count := jobsWith_update h.slots fun l => decide (l.queue = r)
    simp only [free, Option.any_some, Option.any_none, Bool.toNat_false, Job.enter, ← jobs r] at count
    rw [h.queues]
    by_cases mine : q = r
    · rw [if_pos mine]
      simp only [mine, decide_true, Bool.toNat_true] at count
      exact count.symm
    · rw [if_neg mine]
      simp only [mine, decide_false, Bool.toNat_false] at count
      exact count.symm
  · have count := jobsWith_update h.slots fun l => decide (l.command.tag = some g)
    simp only [free, Option.any_some, Option.any_none, Bool.toNat_false, Job.enter, ← tags g] at count
    rw [h.counts]
    by_cases mine : c.tag = some g
    · rw [if_pos mine]
      simp only [mine, decide_true, Bool.toNat_true] at count
      exact count.symm
    · rw [if_neg mine]
      simp only [mine, decide_false, Bool.toNat_false] at count
      exact count.symm
  · rw [h.queues] at hr ⊢
    split at hr
    · cases hr
    · rw [if_neg ‹_›]
      exact aborting r hr

theorem countsSound_freeSlot (slot : s.slot i = some j) (hs : CountsSound s) : CountsSound (s.freeSlot i) :=
  kept_by_free (fun h => countsSound_vacated slot h) (fun free _ _ _ h => countsSound_entered free h) slot hs

theorem countsSound_course (h : Course s t) (hs : CountsSound s) : CountsSound t :=
  kept_by_engine countsSound_shift countsSound_freeSlot hs h

/-- A move of one queue that keeps its count, to a state that is ABORTING only with jobs. -/
theorem countsSound_modQueue {f : Queue → Queue} (hs : CountsSound s) (jobs : (f (s.queue q)).jobs = (s.queue q).jobs)
    (some : (f (s.queue q)).state = .aborting → 0 < (s.queue q).jobs) : CountsSound (s.modQueue q f) := by
  obtain ⟨counted, tags, aborting⟩ := hs
  refine ⟨fun r => ?_, tags, fun r hr => ?_⟩
  · rw [queue_modQueue]
    split
    · subst_vars
      exact jobs.trans (counted _)
    · exact counted r
  · rw [queue_modQueue] at hr ⊢
    split at hr
    · rw [if_pos ‹_›, jobs]
      exact some hr
    · rw [if_neg ‹_›]
      exact aborting r hr

theorem effect_countsSound (h : Effect s t) (hs : CountsSound s) : CountsSound t := by
  cases h with
  | course shift course => exact countsSound_course course (countsSound_shift shift hs)
  | enter i q c cs j free running head job entered => exact countsSound_entered free entered hs
  | stall q c cs j running head job bound full stalled =>
    rw [stalled]
    exact countsSound_modQueue hs rfl nofun
  | note q ws first shift => exact countsSound_shift shift (countsSound_modQueue hs rfl nofun)
  | free i j shift slot freed =>
    rw [freed]
    exact countsSound_freeSlot slot (countsSound_shift shift hs)
  | abort q shift course stopped empty quiet aborted =>
    rw [aborted]
    refine countsSound_modQueue (countsSound_course course (countsSound_shift shift hs)) ?_ ?_
    · split <;> rfl
    · split
      · rw [stopped]
        exact nofun
      · exact fun _ => Nat.pos_of_ne_zero ‹_›
  | reset queues slots tags =>
    refine ⟨fun q => ?_, fun g => ?_, fun q hq => ?_⟩
    · rw [queues, jobsWith_eq_zero slots]
      rfl
    · rw [tags, jobsWith_eq_zero slots]
    · rw [queues] at hq
      cases hq

/-! ### The jobs of an ABORTING queue -/

theorem abortingJobsEnd_iff (s : State) :
    AbortingJobsEnd s ↔ ∀ q i, (s.queue q).state = .aborting → QuietSlot q i s :=
  ⟨fun h _ i hq j slot mine => h i j slot (mine ▸ hq), fun h i j slot hq => h j.queue i hq j slot rfl⟩

theorem abortingJobsEnd_shift (h : Shift s t) (hs : AbortingJobsEnd s) : AbortingJobsEnd t := by
  rw [abortingJobsEnd_iff] at hs ⊢
  exact fun q i aborting => quietSlot_carried (h.slots i) (hs q i ((h.queues q).aborting aborting))

theorem abortingJobsEnd_entered (h : Entered s t i q seq c) (hs : AbortingJobsEnd s) : AbortingJobsEnd t := by
  intro k j slot hq
  rw [h.queues] at hq
  split at hq
  · cases hq
  · rename_i other
    rw [h.slots] at slot
    split at slot
    · cases slot
      exact absurd rfl other
    · exact hs k j slot hq

theorem abortingJobsEnd_freeSlot (slot : s.slot i = some j) (hs : AbortingJobsEnd s) : AbortingJobsEnd (s.freeSlot i) := by
  refine kept_by_free (fun h hs => ?_) (fun _ _ _ _ h => abortingJobsEnd_entered h) slot hs
  intro k l slot hq
  rw [h.slots] at slot
  split at slot
  · cases slot
  · exact hs k l slot ((state_of_vacated h l.queue).2 hq)

theorem abortingJobsEnd_course (h : Course s t) (hs : AbortingJobsEnd s) : AbortingJobsEnd t :=
  kept_by_engine abortingJobsEnd_shift abortingJobsEnd_freeSlot hs h

theorem abortingJobsEnd_modQueue {f : Queue → Queue} (hs : AbortingJobsEnd s)
    (quiet : (f (s.queue q)).state = .aborting → ∀ i j, s.slot i = some j → j.queue = q → j.isRunning = false) :
    AbortingJobsEnd (s.modQueue q f) := by
  intro i j slot hq
  rw [slot_modQueue] at slot
  rw [queue_modQueue] at hq
  split at hq
  · exact quiet hq i j slot (Eq.symm ‹_›)
  · exact hs i j slot hq

theorem effect_abortingJobsEnd (h : Effect s t) (hs : AbortingJobsEnd s) : AbortingJobsEnd t := by
  cases h with
  | course shift course => exact abortingJobsEnd_course course (abortingJobsEnd_shift shift hs)
  | enter i q c cs j free running head job entered => exact abortingJobsEnd_entered entered hs
  | stall q c cs j running head job bound full stalled => exact stalled ▸ abortingJobsEnd_modQueue hs nofun
  | note q ws first shift => exact abortingJobsEnd_shift shift (abortingJobsEnd_modQueue hs nofun)
  | free i j shift slot freed => exact freed ▸ abortingJobsEnd_freeSlot slot (abortingJobsEnd_shift shift hs)
  | abort q shift course stopped empty quiet aborted =>
    exact aborted ▸ abortingJobsEnd_modQueue (abortingJobsEnd_course course (abortingJobsEnd_shift shift hs)) fun _ => quiet
  | reset queues slots tags => exact fun i j slot => (nomatch (slots i).symm.trans slot)

/-- Settles O52. -/
theorem countsKept : Obligations.CountsKept := by
  refine ⟨fun s t jobs tags aborting => ?_, fun s t => ?_⟩
  · exact kept_by_step (P := CountsSound) (fun _ _ => id) (fun hs h => effect_countsSound (happening_effect h) hs)
      ⟨jobs, tags, aborting⟩
  · exact kept_by_step (fun _ _ => id) fun hs h => effect_abortingJobsEnd (happening_effect h) hs

/-! ### The order of the queues -/

theorem queuesOrdered_shift (h : Shift s t) (hs : QueuesOrdered s) : QueuesOrdered t := fun q => (h.queues q).ordered (hs q)

theorem queueOrdered_jobFreed {x : Queue} (h : QueueOrdered x) : QueueOrdered x.jobFreed := by
  refine queueOrdered_of_suffix (commands_jobFreed x ▸ List.suffix_rfl) ?_ h
  unfold Queue.jobFreed
  dsimp only
  split <;> rfl

theorem queuesOrdered_vacated (h : Vacated s v i j) (hs : QueuesOrdered s) : QueuesOrdered v := by
  intro q
  obtain ⟨x, moved, e⟩ := h.queues q
  rw [e]
  split
  · exact queueOrdered_jobFreed (moved.ordered (hs q))
  · exact moved.ordered (hs q)

theorem queuesOrdered_entered (h : Entered s t i q seq c) (hs : QueuesOrdered s) : QueuesOrdered t := by
  intro r
  rw [h.queues]
  split
  · exact queueOrdered_of_suffix (x := s.queue r) (List.tail_suffix _) rfl (hs r)
  · exact hs r

theorem queuesOrdered_freeSlot (slot : s.slot i = some j) (hs : QueuesOrdered s) : QueuesOrdered (s.freeSlot i) :=
  kept_by_free queuesOrdered_vacated (fun _ _ _ _ h => queuesOrdered_entered h) slot hs

theorem queuesOrdered_course (h : Course s t) (hs : QueuesOrdered s) : QueuesOrdered t :=
  kept_by_engine queuesOrdered_shift queuesOrdered_freeSlot hs h

theorem queuesOrdered_modQueue {f : Queue → Queue} (hs : QueuesOrdered s)
    (suffix : (f (s.queue q)).commands <:+ (s.queue q).commands) (next : (f (s.queue q)).nextSeq = (s.queue q).nextSeq) :
    QueuesOrdered (s.modQueue q f) := by
  intro r
  rw [queue_modQueue]
  split
  · exact queueOrdered_of_suffix suffix next (hs q)
  · exact hs r

theorem effect_queuesOrdered (h : Effect s t) (hs : QueuesOrdered s) : QueuesOrdered t := by
  cases h with
  | course shift course => exact queuesOrdered_course course (queuesOrdered_shift shift hs)
  | enter i q c cs j free running head job entered => exact queuesOrdered_entered entered hs
  | stall q c cs j running head job bound full stalled =>
    exact stalled ▸ queuesOrdered_modQueue hs List.suffix_rfl rfl
  | note q ws first shift => exact queuesOrdered_shift shift (queuesOrdered_modQueue hs (List.tail_suffix _) rfl)
  | free i j shift slot freed => exact freed ▸ queuesOrdered_freeSlot slot (queuesOrdered_shift shift hs)
  | abort q shift course stopped empty quiet aborted =>
    rw [aborted]
    refine queuesOrdered_modQueue (queuesOrdered_course course (queuesOrdered_shift shift hs)) ?_ ?_
    · split
      · exact List.suffix_rfl
      · exact List.suffix_rfl
    · split <;> rfl
  | reset queues slots tags =>
    intro q
    rw [queues]
    exact ⟨Nat.zero_le _, fun n h => nomatch h⟩

/-! ### The meaning of a queue's state -/

theorem queuesSound_shift (h : Shift s t) (hs : QueuesSound s) : QueuesSound t := fun q => (h.queues q).sound (hs q)

theorem queueSound_jobFreed {x : Queue} (h : QueueSound x) : QueueSound x.jobFreed := by
  unfold Queue.jobFreed
  dsimp only
  split
  · rename_i last
    exact queueSound_idle (.inl rfl) (halt_none (x := x) h (by rw [last.1]; exact nofun))
  · exact h

theorem queuesSound_vacated (h : Vacated s v i j) (hs : QueuesSound s) : QueuesSound v := by
  intro q
  obtain ⟨x, moved, e⟩ := h.queues q
  rw [e]
  split
  · exact queueSound_jobFreed (moved.sound (hs q))
  · exact moved.sound (hs q)

theorem queuesSound_entered (h : Entered s t i q seq c) (hq : (s.queue q).state ≠ .halted) (hs : QueuesSound s) :
    QueuesSound t := by
  intro r
  rw [h.queues]
  split
  · subst_vars
    exact queueSound_idle (.inr rfl) (halt_none (x := s.queue _) (hs _) hq)
  · exact hs r

theorem queuesSound_freeSlot (slot : s.slot i = some j) (hs : QueuesSound s) : QueuesSound (s.freeSlot i) :=
  kept_by_free queuesSound_vacated
    (fun _ stalled _ _ h => queuesSound_entered h (by rw [stalled]; exact nofun)) slot hs

theorem queuesSound_course (h : Course s t) (hs : QueuesSound s) : QueuesSound t :=
  kept_by_engine queuesSound_shift queuesSound_freeSlot hs h

theorem queuesSound_modQueue {f : Queue → Queue} (hs : QueuesSound s) (sound : QueueSound (f (s.queue q))) :
    QueuesSound (s.modQueue q f) := by
  intro r
  rw [queue_modQueue]
  split
  · exact sound
  · exact hs r

theorem queueSound_stalledSlot {x : Queue} {c : HeldCommand} {cs : List HeldCommand} {j : JobCommand} (h : QueueSound x)
    (running : x.state = .running) (head : x.commands = c :: cs) (job : c.parts.job = some j)
    (bound : 1 ≤ j.count ∧ j.count ≤ 8192) : QueueSound (x.withState .stalledSlot) := by
  have none := halt_none h (by rw [running]; exact nofun)
  simp [QueueSound, Queue.withState, headIs, head, job, bound, none]

theorem queueSound_aborting {x : Queue} (h : QueueSound x) (stopped : x.state = .stopped) (empty : x.commands = []) :
    QueueSound (x.withState .aborting) := by
  have none := halt_none h (by rw [stopped]; exact nofun)
  simp [QueueSound, Queue.withState, empty, none]

theorem stalledRoom_of_first (fifo : FifoSound s) {ws : List Poster} (first : s.completion.waiters = .queue q :: ws) :
    (s.queue q).state = .stalledRoom :=
  stalledRoom_of_canPost (fifo.2.2.2 _ (first ▸ List.mem_cons_self))

theorem effect_queuesSound (fifo : FifoSound s) (h : Effect s t) (hs : QueuesSound s) : QueuesSound t := by
  cases h with
  | course shift course => exact queuesSound_course course (queuesSound_shift shift hs)
  | enter i q c cs j free running head job entered =>
    exact queuesSound_entered entered (by rw [running]; exact nofun) hs
  | stall q c cs j running head job bound full stalled =>
    exact stalled ▸ queuesSound_modQueue hs (queueSound_stalledSlot (hs q) running head job bound)
  | note q ws first shift =>
    have moved : Moved (s.queue q) ((s.queue q).pop.withState .running) :=
      moved_passed (by rw [stalledRoom_of_first fifo first]; exact nofun)
    exact queuesSound_shift shift (queuesSound_modQueue hs (moved.sound (hs q)))
  | free i j shift slot freed => exact freed ▸ queuesSound_freeSlot slot (queuesSound_shift shift hs)
  | abort q shift course stopped empty quiet aborted =>
    have hv := queuesSound_course course (queuesSound_shift shift hs)
    rw [aborted]
    refine queuesSound_modQueue hv ?_
    split
    · exact hv q
    · exact queueSound_aborting (hv q) stopped empty
  | reset queues slots tags =>
    intro q
    rw [queues]
    exact queueSound_idle (.inl rfl) rfl

/-! ### A queue waits for a slot only while none is FREE -/

theorem stalledOnlyWhenFull_shift (h : Shift s t) (hs : StalledOnlyWhenFull s) : StalledOnlyWhenFull t :=
  fun q hq i => (h.slots i).isSome.trans (hs q ((h.queues q).stalled hq) i)

theorem slotWaiter_of_sound (h : QueuesSound s) (hq : (s.queue q).state = .stalledSlot) : s.slotWaiter q ≠ none := by
  obtain ⟨-, head, -⟩ := h q
  have head := head hq
  unfold headIs at head
  cases commands : (s.queue q).commands with
  | nil => simp [commands] at head
  | cons c cs =>
    cases job : c.parts.job with
    | none => simp [commands, job] at head
    | some j => simp [slotWaiter_of_stalled hq commands job]

theorem stalledOnlyWhenFull_entered (h : Entered s t i q seq c)
    (hs : ∀ r, (s.queue r).state = .stalledSlot → ∀ k, i ≠ k → (s.slot k).isSome = true) : StalledOnlyWhenFull t := by
  intro r hr k
  rw [h.queues] at hr
  split at hr
  · cases hr
  · rw [h.slots]
    split
    · rfl
    · exact hs r hr k ‹_›

/-- A freed slot is granted at once while a queue waits. -/
theorem stalledOnlyWhenFull_freeSlot (slot : s.slot i = some j) (sound : QueuesSound s) (hs : StalledOnlyWhenFull s) :
    StalledOnlyWhenFull (s.freeSlot i) := by
  obtain ⟨v, vacated, e⟩ := freeSlot_vacates slot
  have but : ∀ r, (v.queue r).state = .stalledSlot → ∀ k, i ≠ k → (v.slot k).isSome = true := fun r hr k hk => by
    rw [vacated.slots, if_neg hk]
    exact hs r ((state_of_vacated vacated r).1 hr) k
  rw [e]
  rcases grantSlot_entered v i with ⟨none, e⟩ | ⟨q, c, cs, l, stalled, head, job, entered⟩
  · rw [e]
    exact fun r hr => absurd (none r) (slotWaiter_of_sound (queuesSound_vacated vacated sound) hr)
  · exact stalledOnlyWhenFull_entered entered but

/-- The meaning of the queues' states, and that a queue waits for a slot only while none is FREE. -/
def StallsSound (s : State) : Prop := QueuesSound s ∧ StalledOnlyWhenFull s

theorem stallsSound_shift (h : Shift s t) (hs : StallsSound s) : StallsSound t :=
  ⟨queuesSound_shift h hs.1, stalledOnlyWhenFull_shift h hs.2⟩

theorem stallsSound_freeSlot (slot : s.slot i = some j) (hs : StallsSound s) : StallsSound (s.freeSlot i) :=
  ⟨queuesSound_freeSlot slot hs.1, stalledOnlyWhenFull_freeSlot slot hs.1 hs.2⟩

theorem stallsSound_course (h : Course s t) (hs : StallsSound s) : StallsSound t :=
  kept_by_engine stallsSound_shift stallsSound_freeSlot hs h

theorem stalledOnlyWhenFull_modQueue {f : Queue → Queue} (hs : StalledOnlyWhenFull s)
    (stalled : (f (s.queue q)).state ≠ .stalledSlot) : StalledOnlyWhenFull (s.modQueue q f) := by
  intro r hr
  rw [queue_modQueue] at hr
  split at hr
  · exact absurd hr stalled
  · exact hs r hr

theorem effect_stalledOnlyWhenFull (h : Effect s t) (hs : StallsSound s) : StalledOnlyWhenFull t := by
  cases h with
  | course shift course => exact (stallsSound_course course (stallsSound_shift shift hs)).2
  | enter i q c cs j free running head job entered =>
    exact stalledOnlyWhenFull_entered entered fun r hr k _ => hs.2 r hr k
  | stall q c cs j running head job bound full stalled => exact stalled ▸ fun r hr => full
  | note q ws first shift => exact stalledOnlyWhenFull_shift shift (stalledOnlyWhenFull_modQueue hs.2 nofun)
  | free i j shift slot freed => exact freed ▸ (stallsSound_freeSlot slot (stallsSound_shift shift hs)).2
  | abort q shift course stopped empty quiet aborted =>
    rw [aborted]
    refine stalledOnlyWhenFull_modQueue (stallsSound_course course (stallsSound_shift shift hs)).2 ?_
    split
    · rw [stopped]
      exact nofun
    · exact nofun
  | reset queues slots tags =>
    intro q hq
    rw [queues] at hq
    cases hq

/-- Settles O53. -/
theorem queuesKept : Obligations.QueuesKept := by
  refine ⟨fun s t => kept_by_step (fun _ _ => id) fun hs h => effect_queuesOrdered (happening_effect h) hs,
    fun s t fifo sound h => ?_⟩
  obtain ⟨rest, stores, happening⟩ := happening_step h
  have effect := happening_effect happening
  exact ⟨effect_queuesSound (s := s.withPending rest) fifo effect sound,
    fun stalled => effect_stalledOnlyWhenFull (s := s.withPending rest) effect ⟨sound, stalled⟩⟩

end Sys2Proof.Laws

/-!
PROOFS. ABORT (R39, R83): the cancel of one job, and the cancels of a queue's jobs slot by slot.
-/

namespace Sys2Proof.Laws

open Sys2Proof.Machine Sys2Proof.Safety

variable {s t u v : State} {q : QueueId} {i k : SlotId} {j l : Job}

/-! ### The cancel of one job -/

theorem cancelEntered (s : State) (i : SlotId) (rising : j.bursts.Pairwise fun b c => b.index < c.index) :
    CancelEntered s (s.applyEnding i { j with status := some .cancelled }) i j := by
  have keep := slotsAndLocks_applyEnding s i { j with status := some .cancelled }
  exact ⟨slot_applyEnding s i rising, fun k hk => (granted_applyEnding s _ hk).outline, keep.queue, keep.tag,
    keep.slotPointer, keep.completion, keep.interrupts, keep.ext, keep.bankPointers,
    elsewhereKept_of_outside keep.toOutsideTable, fun w hw => (waiters_applyEnding s i _ w hw).2⟩

theorem cancelJob_idle (quiet : QuietSlot q i s) : State.cancelJob q s i = s := by
  rcases cancelJob_cases s q i with ⟨-, e⟩ | ⟨j, slot, mine, running, -⟩
  · exact e
  · rw [quiet j slot mine] at running
    cases running

theorem cancelJob_finishes (slot : s.slot i = some j) (mine : j.queue = q) (running : j.isRunning = true) :
    State.cancelJob q s i = (s.applyEnding i { j with status := some .cancelled }).finishIfOver i := by
  unfold State.cancelJob
  rw [slot]
  exact if_pos ⟨mine, running⟩

theorem cancelJob_running (slot : s.slot i = some j) (mine : j.queue = q) (running : j.isRunning = true)
    (rising : j.bursts.Pairwise fun b c => b.index < c.index) :
    State.cancelJob q s i =
      if burstsAtEnding j.bursts = [] then
        (s.applyEnding i { j with status := some .cancelled }).finishJob i (Job.cancelled j)
      else s.applyEnding i { j with status := some .cancelled } := by
  rw [cancelJob_finishes slot mine running]
  exact finishIfOver_ending (cancelEntered s i rising).1 rfl

/-! ### What a finish leaves of the slots and the records -/

theorem slot_freeSlot_ne (s : State) (h : k ≠ i) : (s.freeSlot k).slot i = s.slot i := by
  cases slot : s.slot k with
  | none => simp only [State.freeSlot, slot]
  | some j =>
    obtain ⟨v, vacated, e⟩ := freeSlot_vacates slot
    have cleared : v.slot i = s.slot i := (vacated.slots i).trans (if_neg h)
    rw [e]
    rcases grantSlot_entered v k with ⟨-, e⟩ | ⟨r, c, cs, l, -, -, -, entered⟩
    · rw [e]
      exact cleared
    · rw [entered.slots, if_neg h]
      exact cleared

/-- What a free leaves in its slot: nothing, or a job that has just entered from a queue that waited. -/
theorem slot_freeSlot_self (slot : s.slot i = some j) :
    (s.freeSlot i).slot i = none ∨
      ∃ r n c, (s.queue r).state = .stalledSlot ∧ (s.freeSlot i).slot i = some (Job.enter r n c) := by
  obtain ⟨v, vacated, e⟩ := freeSlot_vacates slot
  rw [e]
  rcases grantSlot_entered v i with ⟨-, e⟩ | ⟨r, c, cs, l, stalled, -, -, entered⟩
  · rw [e]
    exact .inl ((vacated.slots i).trans (if_pos rfl))
  · exact .inr ⟨r, c.seq, l, (state_of_vacated vacated r).1 stalled, (entered.slots i).trans (if_pos rfl)⟩

theorem slot_finishIfOver_ne (s : State) (h : k ≠ i) : (s.finishIfOver k).slot i = s.slot i := by
  rcases finishIfOver_cases s k with ⟨e, -⟩ | ⟨j, slot, -, ⟨-, -, e⟩ | ⟨-, e⟩ | e⟩
  · rw [e]
  · rw [e]
    exact slot_setSlot_ne s k i _ h
  · rw [e]
    exact (slot_freeSlot_ne _ h).trans (slot_setSlot_ne s k i _ h)
  · rw [e]
    exact (slot_freeSlot_ne _ h).trans (slot_setSlot_ne s k i _ h)

theorem granted_cancelJob (s : State) (q : QueueId) (h : k ≠ i) : Granted (s.slot i) ((State.cancelJob q s k).slot i) := by
  rcases cancelJob_cases s q k with ⟨-, e⟩ | ⟨j, -, -, -, e⟩
  · rw [e]
    exact .refl _
  · rw [e, slot_finishIfOver_ne _ h]
    exact granted_applyEnding s _ (Ne.symm h)

/-! ### The jobs to be cancelled -/

/-- What JobsSound says of a running job that a cancel needs. -/
theorem running_facts (bounded : JobBounded j) (phased : JobPhased j) (running : j.isRunning = true) :
    j.place = none ∧ j.done ≠ j.command.count ∧ j.bursts.Pairwise fun b c => b.index < c.index := by
  obtain ⟨-, -, -, rising, -, -, live, -, place, -⟩ := bounded
  obtain ⟨active, draining, -⟩ := phased
  obtain ⟨status, counted, -⟩ := live running
  refine ⟨?_, ?_, rising⟩
  · rw [← Option.not_isSome_iff_eq_none, place, status]
    exact nofun
  · have states : j.state = .active ∨ j.state = .draining := by simpa [Job.isRunning] using running
    rcases states with h | h
    · have := active h
      omega
    · have := draining h
      omega

/-- Grants bear on no burst that stays in flight. -/
theorem burstsAtEnding_granted {l : List Burst} {f : Burst → Burst} {old : Bool}
    (hf : ∀ b, f b = b ∨ b.state = .lockWait ∧ f b = b.startReading old) :
    burstsAtEnding (l.map f) = burstsAtEnding l := by
  have drop : ∀ b : Burst, staysInFlight (b.startReading old) = false := fun b => by
    have waiting : ∀ r ∈ b.placedReads old, r.isSent = false := fun r hr => by
      rcases List.mem_append.1 hr with hr | hr
      · obtain ⟨p, -, rfl⟩ := List.mem_map.1 hr
        rfl
      · split at hr
        · obtain ⟨p, -, rfl⟩ := List.mem_map.1 hr
          rfl
        · cases hr
    have : (b.placedReads old).any ReadRequest.isSent = false :=
      List.any_eq_false.2 fun r hr => Bool.eq_false_iff.1 (waiting r hr)
    simp [staysInFlight, Burst.startReading, this]
  unfold burstsAtEnding
  congr 1
  induction l with
  | nil => rfl
  | cons b l ih =>
    rw [List.map_cons, List.filter_cons, List.filter_cons, ih]
    rcases hf b with e | ⟨wait, e⟩
    · rw [e]
    · have : staysInFlight b = false := by simp [staysInFlight, wait]
      rw [e, drop, this]
      rfl

theorem rising_granted {l : List Burst} {f : Burst → Burst} {old : Bool}
    (hf : ∀ b, f b = b ∨ b.state = .lockWait ∧ f b = b.startReading old)
    (rising : l.Pairwise fun b c => b.index < c.index) : (l.map f).Pairwise fun b c => b.index < c.index := by
  have index : ∀ b, (f b).index = b.index := fun b => by
    rcases hf b with e | ⟨-, e⟩ <;> rw [e]
    rfl
  refine List.pairwise_map.2 ?_
  simpa only [index] using rising

theorem burstsAtEnding_not_lockWait {l : List Burst} : ∀ b ∈ burstsAtEnding l, b.state ≠ .lockWait := by
  rw [← withdrawn_stay]
  exact fun b hb => withdrawn_not_lockWait b (List.mem_filter.1 hb).1

/-- What a cancel makes of a job's slot: in ENDING with the bursts that stay in flight; or, with none, in POSTING if the
slot still holds a job of the queue. -/
def CancelledSlot (q : QueueId) (j : Job) (x : Option Job) : Prop :=
  (burstsAtEnding j.bursts ≠ [] →
    x = some { j with state := .ending, status := some .cancelled, place := none, bursts := burstsAtEnding j.bursts }) ∧
  (burstsAtEnding j.bursts = [] → ∀ k, x = some k → k.queue = q →
    k = { j with state := .posting, status := some .cancelled, place := none, bursts := [] })

theorem cancelledSlot_granted {x y : Option Job} (h : CancelledSlot q j x) (granted : Granted x y) : CancelledSlot q j y := by
  refine ⟨fun some_ => ?_, fun none k hk mine => ?_⟩
  · rw [h.1 some_] at granted
    exact granted.same burstsAtEnding_not_lockWait
  · cases x with
    | none =>
      rw [granted.1 rfl] at hk
      cases hk
    | some l =>
      obtain ⟨f, -, hy⟩ := granted.2 l rfl
      rw [hy] at hk
      cases hk
      rw [h.2 none l rfl mine]
      rfl

/-- A record of a cancelled job of the queue. -/
def CancelRecord (q : QueueId) (r : Record) : Prop :=
  ∃ kind seq tag done saturation, r = .job kind .cancelled q seq tag done saturation none

theorem fifo_freeSlot (slot : s.slot i = some j) (idle : j.state ≠ .posting) :
    (s.freeSlot i).completion.fifo = s.completion.fifo :=
  (postersKept_freeSlot slot fun posting => absurd posting idle).fifo

/-- The cancel of one job, in its slot and in the records. -/
theorem cancelJob_slot (resting : Resting (s.queue q)) (slot : s.slot i = some j) (mine : j.queue = q)
    (running : j.isRunning = true) (place : j.place = none) (more : j.done ≠ j.command.count)
    (rising : j.bursts.Pairwise fun b c => b.index < c.index) :
    CancelledSlot q j ((State.cancelJob q s i).slot i) ∧
      ∃ records, (State.cancelJob q s i).completion.fifo = s.completion.fifo ++ records ∧ ∀ r ∈ records, CancelRecord q r := by
  obtain ⟨entered, -, queues, -, -, completion, -⟩ := cancelEntered s i rising
  rw [cancelJob_finishes slot mine running]
  generalize s.applyEnding i { j with status := some .cancelled } = u at entered queues completion ⊢
  have settled : Job.settled (Job.cancelled j) = Job.cancelled j := by
    simp [Job.settled, Job.settledStatus, Job.cancelled, more]
  have kept : Job.cancelled j =
      { j with state := .ending, status := some .cancelled, place := none, bursts := burstsAtEnding j.bursts } := by
    rw [Job.cancelled, place]
  rcases finishIfOver_cases u i with ⟨e, more⟩ | ⟨l, slot, isOver, finished⟩
  · have some_ : burstsAtEnding j.bursts ≠ [] := fun none =>
      Bool.eq_false_iff.1 (more _ entered) ((isOver_iff _).2 ⟨none, .inr rfl⟩)
    rw [e, completion]
    exact ⟨⟨fun _ => entered.trans (congrArg some kept), fun none => absurd none some_⟩, [], (List.append_nil _).symm, nofun⟩
  · cases Option.some.inj (slot.symm.trans entered)
    have none : burstsAtEnding j.bursts = [] := ((isOver_iff _).1 isOver).1
    rw [settled] at finished
    have idle : (Job.cancelled j).state ≠ .posting := nofun
    have freed : ∀ w : State, (∀ r, w.queue r = u.queue r) → w.slot i = some (Job.cancelled j) →
        CancelledSlot q j ((w.freeSlot i).slot i) := fun w hq hw => by
      refine ⟨fun some_ => absurd none some_, fun _ k hk mine => ?_⟩
      rcases slot_freeSlot_self hw with e | ⟨r, n, c, stalled, e⟩
      · rw [e] at hk
        cases hk
      · rw [e] at hk
        cases hk
        have : r = q := mine
        rw [hq, queues, this] at stalled
        exact absurd stalled resting.2.1
    rcases finished with ⟨-, -, e⟩ | ⟨-, e⟩ | e
    · rw [e]
      refine ⟨⟨fun some_ => absurd none some_, fun _ k hk _ => ?_⟩, [], ?_, nofun⟩
      · cases Option.some.inj ((slot_setSlot_self u i _).symm.trans hk)
        simp only [kept, none]
      · rw [List.append_nil]
        have fifo := congrArg Completion.fifo completion
        exact fifo
    · rw [e]
      refine ⟨freed ((u.setSlot i _).post _) (fun _ => rfl) (slot_setSlot_self u i _), [(Job.cancelled j).record], ?_,
        fun r hr => ?_⟩
      · rw [fifo_freeSlot (s := (u.setSlot i _).post _) (slot_setSlot_self u i _) idle, ← completion]
        rfl
      · have record : (Job.cancelled j).record =
            .job j.command.work.kind .cancelled q j.seq j.command.tag j.done j.saturation Option.none := by
          rw [kept, Job.record, ← mine]
          rfl
        exact ⟨_, _, _, _, _, (List.mem_singleton.1 hr).trans record⟩
    · rw [e]
      refine ⟨freed (u.setSlot i _) (fun _ => rfl) (slot_setSlot_self u i _), [], ?_, nofun⟩
      rw [List.append_nil, fifo_freeSlot (s := u.setSlot i _) (slot_setSlot_self u i _) idle, ← completion]
      rfl

/-! ### The cancels of a queue's jobs -/

/-- The cancels of queue q have come from s to v, with the slots of l still to take. -/
structure Cancelling (q : QueueId) (s v : State) (l : List SlotId) : Prop where
  resting : Resting (v.queue q)
  free : ∀ i, s.slot i = none → v.slot i = none
  others : ∀ i j, s.slot i = some j → (j.queue = q → j.isRunning = false) →
    (v.slot i).map Job.outline = some (Job.outline j)
  todo : ∀ i j, s.slot i = some j → j.queue = q → j.isRunning = true → i ∈ l → Granted (some j) (v.slot i)
  done : ∀ i j, s.slot i = some j → j.queue = q → j.isRunning = true → i ∉ l → CancelledSlot q j (v.slot i)
  records : ∃ records, v.completion.fifo = s.completion.fifo ++ records ∧ ∀ r ∈ records, CancelRecord q r

theorem quietSlot_of_outline (h : (v.slot i).map Job.outline = some (Job.outline j))
    (other : j.queue = q → j.isRunning = false) : QuietSlot q i v := by
  intro k hk mine
  rw [hk] at h
  have same : Job.outline k = Job.outline j := Option.some.inj h
  have queue := congrArg Job.queue same
  have running := congrArg Job.isRunning same
  exact running.trans (other (queue.symm.trans mine))

/-- The slot to take next, at the cancel of its job. -/
theorem cancelling_slot (sound : JobsSound s) {l : List SlotId} (h : Cancelling q s v (i :: l)) (slot : s.slot i = some j)
    (mine : j.queue = q) (running : j.isRunning = true) :
    CancelledSlot q j ((State.cancelJob q v i).slot i) ∧
      ∃ records, (State.cancelJob q v i).completion.fifo = v.completion.fifo ++ records ∧ ∀ r ∈ records, CancelRecord q r := by
  obtain ⟨bounded, phased⟩ := sound i j slot
  obtain ⟨place, more, rising⟩ := running_facts bounded phased running
  obtain ⟨f, hf, granted⟩ := (h.todo i j slot mine running List.mem_cons_self).2 j rfl
  have cancelled := cancelJob_slot h.resting granted mine running place more (rising_granted hf rising)
  unfold CancelledSlot at cancelled
  rw [burstsAtEnding_granted hf] at cancelled
  exact cancelled

theorem cancelling_step (sound : JobsSound s) {l : List SlotId} (new : i ∉ l) (h : Cancelling q s v (i :: l)) :
    Cancelling q s (State.cancelJob q v i) l := by
  obtain ⟨n, hn⟩ := queue_cancelJob_resting (q := q) h.resting i
  refine ⟨by rw [hn]; exact h.resting, fun k free => ?_, fun k j slot other => ?_, fun k j slot mine running hk => ?_,
    fun k j slot mine running hk => ?_, ?_⟩
  · by_cases e : i = k
    · subst e
      have quiet : QuietSlot q i v := fun j hj => (nomatch (h.free i free).symm.trans hj)
      rw [cancelJob_idle quiet]
      exact h.free i free
    · exact (granted_cancelJob v q e).1 (h.free k free)
  · by_cases e : i = k
    · subst e
      rw [cancelJob_idle (quietSlot_of_outline (h.others i j slot other) other)]
      exact h.others i j slot other
    · exact (granted_cancelJob v q e).outline.trans (h.others k j slot other)
  · have e : i ≠ k := fun e => new (e ▸ hk)
    exact (h.todo k j slot mine running (List.mem_cons_of_mem _ hk)).trans (granted_cancelJob v q e)
  · by_cases e : i = k
    · subst e
      exact (cancelling_slot sound h slot mine running).1
    · refine cancelledSlot_granted (h.done k j slot mine running fun hk' => ?_) (granted_cancelJob v q e)
      exact (List.mem_cons.1 hk').elim (fun h => e h.symm) hk
  · obtain ⟨records, fifo, all⟩ := h.records
    by_cases quiet : QuietSlot q i v
    · rw [cancelJob_idle quiet]
      exact ⟨records, fifo, all⟩
    · cases slot : s.slot i with
      | none => exact absurd (fun j hj => (nomatch (h.free i slot).symm.trans hj)) quiet
      | some j =>
        by_cases mine : j.queue = q ∧ j.isRunning = true
        · obtain ⟨more, fifo', all'⟩ := (cancelling_slot sound h slot mine.1 mine.2).2
          refine ⟨records ++ more, by rw [fifo', fifo, List.append_assoc], fun r hr => ?_⟩
          exact (List.mem_append.1 hr).elim (all r) (all' r)
        · have other : j.queue = q → j.isRunning = false := fun hq => Bool.eq_false_iff.2 fun hr => mine ⟨hq, hr⟩
          exact absurd (quietSlot_of_outline (h.others i j slot other) other) quiet

theorem cancelling_all (sound : JobsSound s) (l : List SlotId) (nodup : l.Nodup) (h : Cancelling q s v l) :
    Cancelling q s (l.foldl (State.cancelJob q) v) [] := by
  induction l generalizing v with
  | nil => exact h
  | cons i l ih =>
    obtain ⟨new, nodup⟩ := List.nodup_cons.1 nodup
    exact ih nodup (cancelling_step sound new h)

/-! ### ABORT as a whole -/

theorem notWaiting_course (hs : Poster.queue q ∉ s.completion.waiters) (h : Course s t) :
    Poster.queue q ∉ t.completion.waiters := by
  refine kept_by_course (P := fun s => Poster.queue q ∉ s.completion.waiters) (fun stirred away => ?_)
    (fun p f n away waits => away ((postersKept_reportJobFault _ p f n).waiters.subset waits)) (fun {t} i away => ?_) hs h
  · rw [stirred.completion]
    exact away
  · rcases finishIfOver_cases t i with ⟨e, -⟩ | ⟨j, slot, isOver, finished⟩
    · rw [e]
      exact away
    · have idle : (Job.settled j).state ≠ .posting := over_not_posting isOver
      rcases finished with ⟨-, -, e⟩ | ⟨-, e⟩ | e
      · rw [e]
        intro waits
        rcases List.mem_append.1 waits with waits | waits
        · exact away waits
        · exact nomatch List.mem_singleton.1 waits
      · rw [e]
        exact fun waits => away ((postersKept_freeSlot (s := (t.setSlot i _).post _) (slot_setSlot_self t i _)
          fun posting => absurd posting idle).waiters.subset waits)
      · rw [e]
        exact fun waits => away ((postersKept_freeSlot (s := t.setSlot i _) (slot_setSlot_self t i _)
          fun posting => absurd posting idle).waiters.subset waits)

theorem cancelling_start (s : State) (q : QueueId) : Cancelling q s (discarded s q) (List.finRange 8) :=
  ⟨by rw [queue_discarded]; exact ⟨nofun, nofun, nofun⟩, fun _ => id,
    fun i _ slot _ => congrArg (Option.map Job.outline) slot, fun i _ slot _ _ _ => slot ▸ .refl (s.slot i),
    fun i _ _ _ _ new => absurd (List.mem_finRange i) new, [], (List.append_nil _).symm, nofun⟩

/-- Settles O6. -/
theorem abortDiscardsAndCancels : Obligations.AbortDiscardsAndCancels := by
  intro q s free
  have abort : exec (.abort q) s = .next (s.abortQueue q) := congrArg _ (hostWrite_of_free free _)
  rw [abort]
  refine ⟨fun fresh => ?_, fun fresh => congrArg _ (abortQueue_eq fresh), fun v i => ⟨cancelJob_idle, fun j slot mine
    running rising => ⟨_, cancelEntered v i rising, cancelJob_running slot mine running rising⟩⟩,
    fun aborting => congrArg _ (abortQueue_aborting aborting)⟩
  have outside := outside_abortQueue s q
  refine ⟨_, rfl, ?_⟩
  rw [abortQueue_eq fresh] at outside ⊢
  have resting := (cancelling_start s q).resting
  have away : Poster.queue q ∉ (discarded s q).completion.waiters := fun waits => by
    simpa using (List.mem_filter.1 waits).2
  obtain ⟨n, queue⟩ := queue_cancels_discarded s q (List.finRange 8)
  have quiet := (quietSlot_cancels (q := q) (List.finRange 8) resting).1
  have waiters := notWaiting_course away (course_cancels q (List.finRange 8) (discarded s q))
  have all : JobsSound s → _ := fun sound => cancelling_all sound _ (List.nodup_finRange 8) (cancelling_start s q)
  generalize (List.finRange 8).foldl (State.cancelJob q) (discarded s q) = v at outside queue quiet waiters all ⊢
  have final : (v.modQueue q fun x => if x.jobs = 0 then x else x.withState .aborting).queue q =
      { (s.queue q).discard with jobs := n, state := if n = 0 then .stopped else .aborting } := by
    rw [queue_modQueue_self, queue]
    dsimp only
    split <;> rfl
  rw [final]
  refine ⟨rfl, rfl, rfl, rfl, rfl, rfl, rfl, fun i j slot mine => ?_, waiters, elsewhereKept_of_outside outside,
    outside.ext, outside.bankPointers, fun sound => ?_⟩
  · exact quiet i (List.mem_finRange i) j slot mine
  · obtain ⟨-, -, others, -, done, records⟩ := all sound
    exact ⟨fun i j slot mine running => done i j slot mine running nofun, others, records⟩

end Sys2Proof.Laws

/-!
PROOFS. The job records (chapters 04, 05, 10): their bounds, states and carried commands, and the form of every record.
-/

namespace Sys2Proof.Laws

open Sys2Proof.Machine Sys2Proof.Safety

variable {s t u v : State} {q : QueueId} {i k : SlotId} {j l : Job} {b c : Burst} {stores : Bool}

/-! ### Properties of a job's command and count alone -/

/-- Every job in a slot has the property. -/
def EveryJob (p : Job → Prop) (s : State) : Prop := ∀ i j, s.slot i = some j → p j

/-- The property passes from a job to what is carried on, and every job that enters has it. -/
structure CarriedProperty (p : Job → Prop) : Prop where
  carry : ∀ {j k : Job}, k.queue = j.queue → k.command = j.command →
    (k.saturation ≠ 0 → j.saturation ≠ 0 ∨ canClamp j.command.work = true) → p j → p k
  enter : ∀ {r : Parts} {c : JobCommand} (q : QueueId) (n : BitVec 16), r.job = some c → p (Job.enter q n c)

section CarriedProperty

variable {p : Job → Prop} (hp : CarriedProperty p)
include hp

theorem everyJob_shift (h : Shift s t) (hs : EveryJob p s) : EveryJob p t := by
  intro i k hk
  cases slot : s.slot i with
  | none =>
    rw [(h.slots i).1 slot] at hk
    cases hk
  | some j =>
    obtain ⟨l, hl, queue, command, -, -, saturation⟩ := (h.slots i).2 j slot
    cases Option.some.inj (hl.symm.trans hk)
    exact hp.carry queue command saturation (hs i j slot)

theorem everyJob_entered {n : BitVec 16} {c : JobCommand} {r : Parts} (h : Entered s t i q n c) (job : r.job = some c)
    (hs : EveryJob p s) : EveryJob p t := by
  intro k j slot
  rw [h.slots] at slot
  split at slot
  · cases slot
    exact hp.enter q n job
  · exact hs k j slot

theorem everyJob_freeSlot (slot : s.slot i = some j) (hs : EveryJob p s) : EveryJob p (s.freeSlot i) := by
  refine kept_by_free (fun h hs => ?_) (fun _ _ _ job h => everyJob_entered hp h job) slot hs
  intro k l slot
  rw [h.slots] at slot
  split at slot
  · cases slot
  · exact hs k l slot

theorem effect_everyJob (h : Effect s t) (hs : EveryJob p s) : EveryJob p t := by
  have course : ∀ {u t : State}, Shift s u → Course u t → EveryJob p t := fun shift course =>
    kept_by_engine (everyJob_shift hp) (everyJob_freeSlot hp) (everyJob_shift hp shift hs) course
  have requeued : ∀ {u : State} (q : QueueId) (f : Queue → Queue), EveryJob p u → EveryJob p (u.modQueue q f) :=
    fun q f hu => hu
  cases h with
  | course shift h => exact course shift h
  | enter i q c cs j free running head job entered => exact everyJob_entered hp entered job hs
  | stall q c cs j running head job bound full stalled => exact stalled ▸ requeued q _ hs
  | note q ws first shift => exact everyJob_shift hp shift (requeued q _ hs)
  | free i j shift slot freed => exact freed ▸ everyJob_freeSlot hp slot (everyJob_shift hp shift hs)
  | abort q shift h stopped empty quiet aborted => exact aborted ▸ requeued q _ (course shift h)
  | reset queues slots tags => exact fun i j slot => (nomatch (slots i).symm.trans slot)

end CarriedProperty

theorem commandsCarried_property : CarriedProperty fun j => j.command.parts.job = some j.command :=
  ⟨fun _ command _ h => by rw [command]; exact h, fun q n job => by rw [Job.enter, job_parts job]; exact job⟩

theorem saturationExplained_property : CarriedProperty fun j => j.saturation ≠ 0 → canClamp j.command.work = true :=
  ⟨fun _ command saturation h some => by
    rw [command]
    exact (saturation some).elim h id, fun _ _ _ h => absurd rfl h⟩

/-! ### Bursts -/

theorem sum_ext_reads (b : Burst) (old : Bool) (r : ReadRole) (hs : b.sources.countP Place.isExt ≤ 1)
    (hd : b.dests.countP Place.isExt ≤ 1) :
    (b.placedReads old).countP (fun x => x.place.isExt && x.role = r) ≤ 1 := by
  unfold Burst.placedReads
  rw [List.countP_append, List.countP_map]
  cases r with
  | source =>
    have olds : (if old = true then b.dests.map fun p =>
        ({ role := .oldDestination, place := p, stage := .waiting } : ReadRequest) else []).countP
          (fun x => x.place.isExt && x.role = .source) = 0 := by
      split <;> simp [List.countP_map, Function.comp_def]
    rw [olds]
    simpa [Function.comp_def] using hs
  | oldDestination =>
    have sources : b.sources.countP ((fun x : ReadRequest => x.place.isExt && x.role = .oldDestination) ∘
        fun p => { role := .source, place := p, stage := .waiting }) = 0 := by
      simp [Function.comp_def]
    rw [sources]
    split
    · simpa [List.countP_map, Function.comp_def] using hd
    · simp

/-- A burst that enters READING from LOCK_WAIT is sound. -/
theorem burstSound_startReading (h : BurstSound b) (hw : b.state ≠ .writing) (old : Bool) :
    BurstSound (b.startReading old) := by
  obtain ⟨-, writes, -, sources, dests, -, -⟩ := h
  have none := writes hw
  exact ⟨nofun, fun _ => none, nofun, sources, dests, fun r => sum_ext_reads b old r sources dests,
    by simp [Burst.startReading, none]⟩

theorem countP_filter_le {α : Type} (l : List α) (p q : α → Bool) (n : Nat) (h : l.countP p ≤ n) :
    (l.filter q).countP p ≤ n :=
  (List.filter_sublist.countP_le).trans h

/-- A burst that loses reads is sound. -/
theorem burstSound_filterReads (h : BurstSound b) (p : ReadRequest → Bool) :
    BurstSound { b with reads := b.reads.filter p } := by
  obtain ⟨lock, writes, writing, sources, dests, reads, ext⟩ := h
  refine ⟨fun e => ?_, writes, fun e => ⟨?_, (writing e).2⟩, sources, dests, fun r => countP_filter_le _ _ _ _ (reads r), ext⟩
  · show b.reads.filter p = []
    rw [lock e]
    rfl
  · refine List.all_eq_true.2 fun r hr => List.all_eq_true.1 (writing e).1 r (List.mem_filter.1 hr).1

theorem burstSound_withdraw (h : BurstSound b) : BurstSound b.withdraw := by
  unfold Burst.withdraw
  split
  · exact burstSound_filterReads h _
  · exact h
  · exact h

/-- A burst with a read that has not returned is in READING. -/
theorem reading_of_open {r : ReadRequest} (h : BurstSound b) (hr : r ∈ b.reads) (open_ : hasReturned r = false) :
    b.state = .reading := by
  obtain ⟨lock, -, writing, -⟩ := h
  cases e : b.state with
  | reading => rfl
  | lockWait =>
    rw [lock e] at hr
    cases hr
  | writing =>
    rw [List.all_eq_true.1 (writing e).1 r hr] at open_
    cases open_

/-- A burst with a write is in WRITING. -/
theorem writing_of_write {w : WriteRequest} (h : BurstSound b) (hw : w ∈ b.writes) : b.state = .writing := by
  obtain ⟨-, writes, -⟩ := h
  by_contra ne
  rw [writes ne] at hw
  cases hw

theorem countP_setRead (b : Burst) (r : ReadRequest) (stage : ReadStage) (role : ReadRole) :
    (b.setRead r stage).reads.countP (fun x => x.place.isExt && x.role = role) =
      b.reads.countP (fun x => x.place.isExt && x.role = role) := by
  unfold Burst.setRead
  rw [List.countP_map]
  refine List.countP_congr fun x _ => ?_
  rw [Function.comp_apply]
  split
  · subst_vars
    rfl
  · rfl

theorem burstSound_setRead {r : ReadRequest} (h : BurstSound b) (hr : b.state = .reading) (stage : ReadStage) :
    BurstSound (b.setRead r stage) := by
  obtain ⟨-, writes, -, sources, dests, reads, ext⟩ := h
  exact ⟨fun e => (nomatch hr.symm.trans e), writes, fun e => (nomatch hr.symm.trans e), sources, dests,
    fun role => (countP_setRead b r stage role).trans_le (reads role), ext⟩

theorem burstSound_setWrite {w : WriteRequest} (h : BurstSound b) (hw : b.state = .writing) (stage : WriteStage) :
    BurstSound (b.setWrite w stage) := by
  obtain ⟨lock, -, writing, sources, dests, reads, ext⟩ := h
  refine ⟨lock, fun ne => absurd hw ne, writing, sources, dests, reads, Eq.trans_le ?_ ext⟩
  unfold Burst.setWrite
  rw [List.countP_map]
  refine List.countP_congr fun x _ => ?_
  rw [Function.comp_apply]
  split
  · subst_vars
    rfl
  · rfl

theorem burstSound_startWriting (h : BurstSound b) (all : b.reads.all hasReturned = true) (good : b.failed = false)
    (d : BurstData) : BurstSound (b.startWriting d) := by
  obtain ⟨-, -, -, sources, dests, reads, -⟩ := h
  refine ⟨nofun, fun ne => absurd rfl ne, fun _ => ⟨all, good⟩, sources, dests, reads, ?_⟩
  unfold Burst.startWriting
  rw [List.countP_map]
  exact dests

/-! ### Jobs with their bursts changed -/

/-- The states of a job, but for the bursts that must be in flight. -/
def JobAlmost (j : Job) : Prop :=
  (j.state = .active → j.next < j.command.count) ∧ (j.state = .draining → j.next = j.command.count) ∧
  (j.state = .ending → ∃ st, j.status = some st ∧ st ≠ .ok) ∧
  (j.state = .posting → j.bursts = [] ∧ ∃ st, j.status = some st ∧ (st = .ok ↔ j.done = j.command.count))

theorem jobPhased_iff (j : Job) : JobPhased j ↔ JobAlmost j ∧ j.isOver = false := by
  have landed : j.isOver = false ↔ (j.state = .draining → 0 < j.inFlight) ∧ (j.state = .ending → 0 < j.inFlight) := by
    rw [← Bool.not_eq_true, isOver_iff, Job.inFlight, List.length_pos_iff]
    constructor
    · exact fun h => ⟨fun d e => h ⟨e, .inl d⟩, fun d e => h ⟨e, .inr d⟩⟩
    · rintro ⟨hd, he⟩ ⟨e, d | d⟩
      · exact hd d e
      · exact he d e
  rw [landed]
  unfold JobPhased JobAlmost
  constructor
  · rintro ⟨active, draining, ending, posting⟩
    exact ⟨⟨active, fun h => (draining h).1, fun h => (ending h).2, posting⟩, fun h => (draining h).2, fun h => (ending h).1⟩
  · rintro ⟨⟨active, draining, ending, posting⟩, hd, he⟩
    exact ⟨active, fun h => ⟨draining h, hd h⟩, fun h => ⟨he h, ending h⟩, posting⟩

/-- A job record is sound. -/
def JobSound (j : Job) : Prop := JobBounded j ∧ JobPhased j

theorem countP_map_state {l : List Burst} {f : Burst → Burst}
    (hf : ∀ b ∈ l, (f b).state = .writing → b.state = .writing) :
    (l.map f).countP (fun b => b.state = .writing) ≤ l.countP fun b => b.state = .writing := by
  rw [List.countP_map]
  refine List.countP_mono_left fun b hb h => ?_
  rw [decide_eq_true_eq]
  exact hf b hb (by simpa using h)

/-- Bursts changed one by one, in place. -/
theorem jobBounded_map {f : Burst → Burst} (h : JobBounded j) (index : ∀ b ∈ j.bursts, (f b).index = b.index)
    (sound : ∀ b ∈ j.bursts, BurstSound (f b)) (good : j.isRunning = true → ∀ b ∈ j.bursts, (f b).failed = false)
    (writing : j.isRunning = true ∨ ∀ b ∈ j.bursts, (f b).state = .writing → b.state = .writing) :
    JobBounded { j with bursts := j.bursts.map f } := by
  obtain ⟨limit, next, count, rising, bursts, done, running, fault, place, saturation⟩ := h
  have length : (j.bursts.map f).length = j.bursts.length := List.length_map _
  refine ⟨length.trans_le limit, next, count, ?_, fun c hc => ?_, ?_, fun hr => ?_, fun hf => ?_, place, saturation⟩
  · refine List.pairwise_map.2 (rising.imp_of_mem fun {b c} hb hc lt => ?_)
    rw [index b hb, index c hc]
    exact lt
  · obtain ⟨b, hb, rfl⟩ := List.mem_map.1 hc
    exact ⟨index b hb ▸ (bursts b hb).1, sound b hb⟩
  · simp only [Job.inFlight, length]
    exact done
  · obtain ⟨status, total, -⟩ := running hr
    refine ⟨status, ?_, fun c hc => ?_⟩
    · simp only [Job.inFlight, length]
      exact total
    · obtain ⟨b, hb, rfl⟩ := List.mem_map.1 hc
      exact good hr b hb
  · rcases writing with hr | writing
    · rw [(running hr).1] at hf
      cases hf
    · have := countP_map_state writing
      have := fault hf
      simp only [writingCount] at this ⊢
      omega

theorem jobAlmost_map {f : Burst → Burst} (h : JobAlmost j) : JobAlmost { j with bursts := j.bursts.map f } := by
  obtain ⟨active, draining, ending, posting⟩ := h
  refine ⟨active, draining, ending, fun e => ⟨?_, (posting e).2⟩⟩
  show j.bursts.map f = []
  rw [(posting e).1]
  rfl

theorem isOver_map {f : Burst → Burst} : Job.isOver { j with bursts := j.bursts.map f } = j.isOver := by
  simp [Job.isOver]

theorem jobSound_map {f : Burst → Burst} (h : JobSound j) (index : ∀ b ∈ j.bursts, (f b).index = b.index)
    (sound : ∀ b ∈ j.bursts, BurstSound (f b)) (good : j.isRunning = true → ∀ b ∈ j.bursts, (f b).failed = false)
    (writing : j.isRunning = true ∨ ∀ b ∈ j.bursts, (f b).state = .writing → b.state = .writing) :
    JobSound { j with bursts := j.bursts.map f } := by
  obtain ⟨bounded, phased⟩ := h
  obtain ⟨almost, flying⟩ := (jobPhased_iff j).1 phased
  exact ⟨jobBounded_map bounded index sound good writing,
    (jobPhased_iff _).2 ⟨jobAlmost_map almost, isOver_map.trans flying⟩⟩

/-- What a burst put back in its job must keep. -/
theorem jobSound_putBurst (h : JobSound j) (hb : b ∈ j.bursts) (hi : c.index = b.index) (hc : BurstSound c)
    (good : j.isRunning = true → c.failed = false)
    (writing : j.isRunning = true ∨ (c.state = .writing → b.state = .writing)) : JobSound (j.putBurst c) := by
  have rising := h.1.2.2.2.1
  have bursts := h.1.2.2.2.2.1
  have only : ∀ x ∈ j.bursts, x.index = c.index → x = b := fun x hx e => eq_of_index rising hx hb (e.trans hi)
  refine jobSound_map h (fun x hx => ?_) (fun x hx => ?_) (fun hr x hx => ?_) (writing.imp_right fun hw x hx hs => ?_)
  · split
    · exact Eq.symm ‹_›
    · rfl
  · split
    · exact hc
    · exact (bursts x hx).2
  · split
    · exact good hr
    · exact (h.1.2.2.2.2.2.2.1 hr).2.2 x hx
  · split at hs
    · rw [only x hx ‹_›]
      exact hw hs
    · exact hs

/-- Grants leave a job's record sound. -/
theorem granted_map {f : Burst → Burst} {old : Bool} (hf : ∀ b, f b = b ∨ b.state = .lockWait ∧ f b = b.startReading old) :
    (∀ b, (f b).index = b.index) ∧ (∀ b, BurstSound b → BurstSound (f b)) ∧ (∀ b, (f b).failed = b.failed) ∧
      ∀ b, (f b).state = .writing → b.state = .writing := by
  refine ⟨fun b => ?_, fun b hb => ?_, fun b => ?_, fun b hb => ?_⟩ <;> rcases hf b with e | ⟨wait, e⟩
  · rw [e]
  · rw [e]
    rfl
  · rw [e]
    exact hb
  · rw [e]
    exact burstSound_startReading hb (by rw [wait]; exact nofun) old
  · rw [e]
  · rw [e]
    rfl
  · rwa [e] at hb
  · rw [e] at hb
    cases hb

end Sys2Proof.Laws

/-!
PROOFS. The engine's turns (chapters 04, 06, 08): what the end of one request of a burst, a fault or a cancel makes of the
job in its slot.
-/

namespace Sys2Proof.Laws

open Sys2Proof.Machine Sys2Proof.Safety

variable {s t u v : State} {q : QueueId} {i k : SlotId} {j l m : Job} {b c : Burst} {role : RequestRole} {a n : Nat}

/-! ### The requests a burst has sent -/

/-- The burst has sent the request of this role to this external burst. -/
def hasSent (role : RequestRole) (a : Nat) (b : Burst) : Prop :=
  carries { slot := 0, burst := 0, role := role, address := a, accepted := false, timer := none } b = true

theorem carries_iff (o : BusyId) : carries o b = true ↔ hasSent o.role o.address b := Iff.rfl

theorem hasSent_read {r : ReadRole} : hasSent (.read r) a b ↔
    ∃ x ∈ b.reads, x.isSent = true ∧ x.role = r ∧ x.place = .ext a := by
  simp [hasSent, carries, and_assoc]

theorem hasSent_write : hasSent .write a b ↔ ∃ x ∈ b.writes, x.stage = .sent ∧ x.place = .ext a := by
  simp [hasSent, carries]

/-- Of the bursts in the list, the one of this index has sent the request. -/
def SentIn (l : List Burst) (n : Nat) (role : RequestRole) (a : Nat) : Prop :=
  ∃ b ∈ l, b.index = n ∧ hasSent role a b

theorem eq_of_countP_le_one {α : Type} {l : List α} {p : α → Bool} (h : l.countP p ≤ 1) {x y : α} (hx : x ∈ l) (hy : y ∈ l)
    (px : p x = true) (py : p y = true) : x = y := by
  rw [List.countP_eq_length_filter] at h
  have mx := List.mem_filter.2 ⟨hx, px⟩
  have my := List.mem_filter.2 ⟨hy, py⟩
  revert h mx my
  rcases l.filter p with _ | ⟨z, _ | ⟨w, l⟩⟩
  · intro _ mx
    cases mx
  · intro _ mx my
    rw [List.mem_singleton.1 mx, List.mem_singleton.1 my]
  · intro h
    simp at h

/-- The role and address of a read. -/
def isRead (r : ReadRequest) (role : RequestRole) (a : Nat) : Prop := role = .read r.role ∧ r.place = .ext a

/-- The role and address of a write. -/
def isWrite (w : WriteRequest) (role : RequestRole) (a : Nat) : Prop := role = .write ∧ w.place = .ext a

/-- A burst without one of its reads has sent every other request that it had sent. -/
theorem hasSent_without_read {r : ReadRequest} (h : BurstSound b) (hr : r ∈ b.reads) (writes : c.writes = b.writes)
    (reads : ∀ x : ReadRequest, x.isSent = true → (x ∈ c.reads ↔ x ∈ b.reads ∧ x ≠ r)) :
    hasSent role a c ↔ hasSent role a b ∧ ¬isRead r role a := by
  obtain ⟨-, -, -, -, -, unique, -⟩ := h
  cases role with
  | write =>
    rw [hasSent_write, hasSent_write, writes]
    exact ⟨fun h => ⟨h, fun e => nomatch e.1⟩, And.left⟩
  | read role =>
    rw [hasSent_read, hasSent_read]
    constructor
    · rintro ⟨x, hx, sent, rfl, place⟩
      obtain ⟨hx, ne⟩ := (reads x sent).1 hx
      refine ⟨⟨x, hx, sent, rfl, place⟩, fun e => ne ?_⟩
      have same := RequestRole.read.inj e.1
      exact eq_of_countP_le_one (unique x.role) hx hr (by simp [place, Place.isExt]) (by simp [e.2, same, Place.isExt])
    · rintro ⟨⟨x, hx, sent, rfl, place⟩, other⟩
      refine ⟨x, (reads x sent).2 ⟨hx, ?_⟩, sent, rfl, place⟩
      rintro rfl
      exact other ⟨rfl, place⟩

/-- A burst with one of its writes done has sent every other request that it had sent. -/
theorem hasSent_setWrite {w : WriteRequest} (h : BurstSound b) (hw : w ∈ b.writes) :
    hasSent role a (b.setWrite w .done) ↔ hasSent role a b ∧ ¬isWrite w role a := by
  obtain ⟨-, -, -, -, -, -, unique⟩ := h
  cases role with
  | read role =>
    rw [hasSent_read, hasSent_read]
    exact ⟨fun h => ⟨h, fun e => nomatch e.1⟩, And.left⟩
  | write =>
    rw [hasSent_write, hasSent_write]
    constructor
    · rintro ⟨y, hy, sent, place⟩
      obtain ⟨x, hx, rfl⟩ := List.mem_map.1 hy
      split at sent
      · cases sent
      · rename_i ne
        rw [if_neg ne] at place
        refine ⟨⟨x, hx, sent, place⟩, fun e => ne ?_⟩
        exact eq_of_countP_le_one unique hx hw (by simp [place, Place.isExt]) (by simp [e.2, Place.isExt])
    · rintro ⟨⟨x, hx, sent, place⟩, other⟩
      refine ⟨x, List.mem_map.2 ⟨x, hx, if_neg ?_⟩, sent, place⟩
      rintro rfl
      exact other ⟨rfl, place⟩

theorem hasSent_returned {r : ReadRequest} (h : BurstSound b) (hr : r ∈ b.reads) (d : BurstData) :
    hasSent role a (b.setRead r (.returned d)) ↔ hasSent role a b ∧ ¬isRead r role a := by
  refine hasSent_without_read h hr rfl fun x sent => ?_
  constructor
  · intro hx
    obtain ⟨y, hy, rfl⟩ := List.mem_map.1 hx
    split at sent
    · cases sent
    · rename_i ne
      rw [if_neg ne]
      exact ⟨hy, ne⟩
  · rintro ⟨hx, ne⟩
    exact List.mem_map.2 ⟨x, hx, if_neg ne⟩

theorem hasSent_dropRead {r : ReadRequest} (h : BurstSound b) (hr : r ∈ b.reads) :
    hasSent role a (b.dropRead r) ↔ hasSent role a b ∧ ¬isRead r role a :=
  hasSent_without_read h hr rfl fun x _ => by simp [Burst.dropRead]

theorem hasSent_failRead {r : ReadRequest} (h : BurstSound b) (hr : r ∈ b.reads) :
    hasSent role a (b.failRead r) ↔ hasSent role a b ∧ ¬isRead r role a := by
  refine hasSent_without_read h hr rfl fun x sent => ?_
  have : x.isWaiting = false := by
    have : x.stage = .sent := by simpa [ReadRequest.isSent] using sent
    simp [ReadRequest.isWaiting, this]
  simp [Burst.failRead, this]

/-- Only a burst in READING has sent a read, and only one in WRITING a write. -/
theorem hasSent_state (h : BurstSound b) (sent : hasSent role a b) :
    (∃ r, role = .read r) ∧ b.state = .reading ∧ b.awaitsRead = true ∨ role = .write ∧ b.state = .writing := by
  cases role with
  | read r =>
    obtain ⟨x, hx, sent, -, -⟩ := hasSent_read.1 sent
    have open_ : hasReturned x = false := by
      have : x.stage = .sent := by simpa [ReadRequest.isSent] using sent
      simp [hasReturned, ReadRequest.words?, this]
    exact .inl ⟨⟨r, rfl⟩, reading_of_open h hx open_, List.any_eq_true.2 ⟨x, hx, sent⟩⟩
  | write =>
    obtain ⟨x, hx, -, -⟩ := hasSent_write.1 sent
    exact .inr ⟨rfl, writing_of_write h hx⟩

/-- A burst that has sent a request, and has not failed in its write, stays in flight at ENDING. -/
theorem stays_of_hasSent (h : BurstSound b) (sent : hasSent role a b) : staysInFlight b = true := by
  rcases hasSent_state h sent with ⟨-, reading, awaits⟩ | ⟨-, writing⟩
  · have : b.reads.any ReadRequest.isSent = true := awaits
    simp [staysInFlight, reading, this]
  · simp [staysInFlight, writing, (h.2.2.1 writing).2]

theorem hasSent_withdraw : hasSent role a b.withdraw ↔ hasSent role a b := by
  unfold Burst.withdraw
  split
  · cases role with
    | write => exact Iff.rfl
    | read r =>
      rw [hasSent_read, hasSent_read]
      constructor
      · rintro ⟨x, hx, rest⟩
        exact ⟨x, (List.mem_filter.1 hx).1, rest⟩
      · rintro ⟨x, hx, sent, rest⟩
        have : x.stage = .sent := by simpa [ReadRequest.isSent] using sent
        exact ⟨x, List.mem_filter.2 ⟨hx, by simp [ReadRequest.isWaiting, this]⟩, sent, rest⟩
  · exact Iff.rfl
  · exact Iff.rfl

/-- No read has been sent as it is placed. -/
theorem placedReads_unsent (b : Burst) (old : Bool) : (b.placedReads old).any ReadRequest.isSent = false := by
  refine List.any_eq_false.2 fun r hr => ?_
  rcases List.mem_append.1 hr with hr | hr
  · obtain ⟨p, -, rfl⟩ := List.mem_map.1 hr
    exact nofun
  · split at hr
    · obtain ⟨p, -, rfl⟩ := List.mem_map.1 hr
      exact nofun
    · cases hr

/-- A burst in READING with no read outstanding has sent nothing. -/
theorem not_hasSent (h : BurstSound c) (reading : c.state = .reading) (quiet : c.reads.any ReadRequest.isSent = false) :
    ¬hasSent role a c := by
  intro sent
  rcases hasSent_state h sent with ⟨-, -, awaits⟩ | ⟨-, writing⟩
  · exact absurd (quiet.symm.trans awaits) nofun
  · exact nomatch reading.symm.trans writing

/-- The burst has sent a request that is not external. -/
def Strayed (b : Burst) : Prop :=
  (∃ r ∈ b.reads, r.isSent = true ∧ r.place.isExt = false) ∨ ∃ w ∈ b.writes, w.stage = .sent ∧ w.place.isExt = false

theorem strayed_of_fewer (h : Strayed c) (reads : ∀ x ∈ c.reads, x.isSent = true → x ∈ b.reads)
    (writes : ∀ x ∈ c.writes, x.stage = .sent → x ∈ b.writes) : Strayed b :=
  h.imp (fun ⟨r, hr, sent, place⟩ => ⟨r, reads r hr sent, sent, place⟩) fun ⟨w, hw, sent, place⟩ =>
    ⟨w, writes w hw sent, sent, place⟩

theorem strayed_returned {r : ReadRequest} {d : BurstData} (h : Strayed (b.setRead r (.returned d))) : Strayed b := by
  refine strayed_of_fewer h (fun x hx sent => ?_) (fun _ hx _ => hx)
  obtain ⟨y, hy, rfl⟩ := List.mem_map.1 hx
  split at sent
  · cases sent
  · rwa [if_neg ‹_›]

theorem strayed_setWrite {w : WriteRequest} (h : Strayed (b.setWrite w .done)) : Strayed b := by
  refine strayed_of_fewer h (fun _ hx _ => hx) (fun x hx sent => ?_)
  obtain ⟨y, hy, rfl⟩ := List.mem_map.1 hx
  split at sent
  · cases sent
  · rwa [if_neg ‹_›]

theorem strayed_dropRead {r : ReadRequest} (h : Strayed (b.dropRead r)) : Strayed b :=
  strayed_of_fewer h (fun _ hx _ => (List.mem_filter.1 hx).1) (fun _ hx _ => hx)

theorem strayed_failRead {r : ReadRequest} (h : Strayed (b.failRead r)) : Strayed b :=
  strayed_of_fewer h (fun _ hx _ => (List.mem_filter.1 (List.mem_filter.1 hx).1).1) (fun _ hx _ => hx)

theorem strayed_startWriting {d : BurstData} (h : Strayed (b.startWriting d)) : Strayed b := by
  refine strayed_of_fewer h (fun _ hx _ => hx) (fun x hx sent => ?_)
  obtain ⟨p, -, rfl⟩ := List.mem_map.1 hx
  cases sent

theorem strayed_withdraw (h : Strayed b.withdraw) : Strayed b := by
  unfold Burst.withdraw at h
  split at h
  · exact strayed_of_fewer h (fun _ hx _ => (List.mem_filter.1 hx).1) (fun _ hx _ => hx)
  · exact h
  · exact h

/-! The requests that a list of bursts has sent, once one of them is handled. -/

theorem burstsAtEnding_eq (l : List Burst) : burstsAtEnding l = (l.filter staysInFlight).map Burst.withdraw := by
  unfold burstsAtEnding
  refine List.map_congr_left fun b hb => ?_
  unfold Burst.withdraw
  cases state : b.state <;> simp

theorem sentIn_ended {l : List Burst} :
    SentIn (burstsAtEnding l) n role a ↔ ∃ b ∈ l, b.index = n ∧ hasSent role a b ∧ staysInFlight b = true := by
  rw [burstsAtEnding_eq]
  constructor
  · rintro ⟨c, hc, hn, sent⟩
    obtain ⟨b, hb, rfl⟩ := List.mem_map.1 hc
    obtain ⟨hb, stays⟩ := List.mem_filter.1 hb
    exact ⟨b, hb, (index_withdraw b).symm.trans hn, hasSent_withdraw.1 sent, stays⟩
  · rintro ⟨b, hb, hn, sent, stays⟩
    exact ⟨b.withdraw, List.mem_map_of_mem (List.mem_filter.2 ⟨hb, stays⟩), (index_withdraw b).trans hn,
      hasSent_withdraw.2 sent⟩

theorem mem_putBurst {x : Burst} : x ∈ (j.putBurst c).bursts ↔ ∃ y ∈ j.bursts, (if y.index = c.index then c else y) = x :=
  List.mem_map

/-- No burst in the list has sent a request that is not external. -/
def NoneStrayed (l : List Burst) : Prop := ∀ b ∈ l, ¬Strayed b

theorem noneStrayed_putBurst (hb : b ∈ j.bursts) (strayed : Strayed c → Strayed b) (h : NoneStrayed j.bursts) :
    NoneStrayed (j.putBurst c).bursts := by
  intro x hx
  obtain ⟨y, hy, rfl⟩ := mem_putBurst.1 hx
  split
  · exact fun e => h b hb (strayed e)
  · exact h y hy

theorem noneStrayed_ended {l : List Burst} (h : NoneStrayed l) : NoneStrayed (burstsAtEnding l) := by
  intro x hx
  rw [burstsAtEnding_eq] at hx
  obtain ⟨b, hb, rfl⟩ := List.mem_map.1 hx
  exact fun e => h b (List.mem_filter.1 hb).1 (strayed_withdraw e)

section Handled

variable {g : RequestRole → Nat → Prop} (rising : j.bursts.Pairwise fun b c => b.index < c.index) (hb : b ∈ j.bursts)
include rising hb

theorem sentIn_putBurst (hi : c.index = b.index) (left : ∀ role a, hasSent role a c ↔ hasSent role a b ∧ ¬g role a) :
    SentIn (j.putBurst c).bursts n role a ↔ SentIn j.bursts n role a ∧ ¬(n = b.index ∧ g role a) := by
  constructor
  · rintro ⟨x, hx, rfl, sent⟩
    obtain ⟨y, hy, rfl⟩ := mem_putBurst.1 hx
    split at sent
    · rename_i same
      obtain ⟨sent, other⟩ := (left role a).1 sent
      rw [if_pos same]
      exact ⟨⟨b, hb, hi.symm, sent⟩, fun e => other e.2⟩
    · rename_i ne
      rw [if_neg ne]
      exact ⟨⟨y, hy, rfl, sent⟩, fun e => ne (e.1.trans hi.symm)⟩
  · rintro ⟨⟨y, hy, rfl, sent⟩, other⟩
    by_cases same : y.index = c.index
    · have : y = b := eq_of_index rising hy hb (same.trans hi)
      subst this
      exact ⟨c, mem_putBurst.2 ⟨y, hy, if_pos same⟩, same.symm, (left role a).2 ⟨sent, fun e => other ⟨rfl, e⟩⟩⟩
    · exact ⟨y, mem_putBurst.2 ⟨y, hy, if_neg same⟩, rfl, sent⟩

theorem sentIn_without (none : ∀ role a, hasSent role a b → g role a) :
    SentIn (j.bursts.filter fun c => c.index ≠ b.index) n role a ↔
      SentIn j.bursts n role a ∧ ¬(n = b.index ∧ g role a) := by
  constructor
  · rintro ⟨x, hx, rfl, sent⟩
    obtain ⟨hx, ne⟩ := List.mem_filter.1 hx
    exact ⟨⟨x, hx, rfl, sent⟩, fun e => of_decide_eq_true ne e.1⟩
  · rintro ⟨⟨x, hx, rfl, sent⟩, other⟩
    refine ⟨x, List.mem_filter.2 ⟨hx, decide_eq_true fun same => ?_⟩, rfl, sent⟩
    have : x = b := eq_of_index rising hx hb same
    subst this
    exact other ⟨rfl, none role a sent⟩

theorem sentIn_ended_putBurst (sound : ∀ b ∈ j.bursts, BurstSound b) (hi : c.index = b.index)
    (left : ∀ role a, hasSent role a c ∧ staysInFlight c = true ↔ hasSent role a b ∧ ¬g role a) :
    SentIn (burstsAtEnding (j.putBurst c).bursts) n role a ↔ SentIn j.bursts n role a ∧ ¬(n = b.index ∧ g role a) := by
  rw [sentIn_ended]
  constructor
  · rintro ⟨x, hx, rfl, sent, stays⟩
    obtain ⟨y, hy, rfl⟩ := mem_putBurst.1 hx
    split at sent
    · rename_i same
      rw [if_pos same] at stays ⊢
      obtain ⟨sent, other⟩ := (left role a).1 ⟨sent, stays⟩
      exact ⟨⟨b, hb, hi.symm, sent⟩, fun e => other e.2⟩
    · rename_i ne
      rw [if_neg ne]
      exact ⟨⟨y, hy, rfl, sent⟩, fun e => ne (e.1.trans hi.symm)⟩
  · rintro ⟨⟨y, hy, rfl, sent⟩, other⟩
    by_cases same : y.index = c.index
    · have : y = b := eq_of_index rising hy hb (same.trans hi)
      subst this
      exact ⟨c, mem_putBurst.2 ⟨y, hy, if_pos same⟩, same.symm, (left role a).2 ⟨sent, fun e => other ⟨rfl, e⟩⟩⟩
    · exact ⟨y, mem_putBurst.2 ⟨y, hy, if_neg same⟩, rfl, sent, stays_of_hasSent (sound y hy) sent⟩

end Handled

theorem sentIn_ended_same {l : List Burst} (sound : ∀ b ∈ l, BurstSound b) :
    SentIn (burstsAtEnding l) n role a ↔ SentIn l n role a := by
  rw [sentIn_ended]
  exact ⟨fun ⟨b, hb, hn, sent, _⟩ => ⟨b, hb, hn, sent⟩, fun ⟨b, hb, hn, sent⟩ =>
    ⟨b, hb, hn, sent, stays_of_hasSent (sound b hb) sent⟩⟩

/-! ### Job records that may be over -/

/-- A job record is sound, but that no burst need be left in flight. -/
def JobFit (j : Job) : Prop := JobBounded j ∧ JobAlmost j

theorem jobSound_iff (j : Job) : JobSound j ↔ JobFit j ∧ j.isOver = false := by
  rw [JobSound, jobPhased_iff, JobFit, and_assoc]

theorem JobSound.rising (h : JobSound j) : j.bursts.Pairwise fun b c => b.index < c.index := h.1.2.2.2.1

theorem JobSound.burst (h : JobSound j) (hb : b ∈ j.bursts) : b.index < j.next ∧ BurstSound b := h.1.2.2.2.2.1 b hb

theorem JobSound.good (h : JobSound j) (running : j.isRunning = true) (hb : b ∈ j.bursts) : b.failed = false :=
  (h.1.2.2.2.2.2.2.1 running).2.2 b hb

theorem perm_without {l : List Burst} (rising : l.Pairwise fun b c => b.index < c.index) (hb : b ∈ l) :
    l.Perm (b :: l.filter fun c => c.index ≠ b.index) := by
  induction l with
  | nil => cases hb
  | cons x l ih =>
    obtain ⟨first, rest⟩ := List.pairwise_cons.1 rising
    rcases List.mem_cons.1 hb with rfl | hb
    · have all : l.filter (fun c => decide (c.index ≠ b.index)) = l :=
        List.filter_eq_self.2 fun c hc => decide_eq_true (Nat.ne_of_gt (first c hc))
      rw [List.filter_cons_of_neg (by simp), all]
    · rw [List.filter_cons_of_pos (by simpa using Nat.ne_of_lt (first b hb))]
      exact ((ih rest hb).cons x).trans (List.Perm.swap b x _)

/-- A burst leaves its job: counted, if the job is ACTIVE or DRAINING or the burst in WRITING; or uncounted, if the job is
in ENDING. -/
theorem jobFit_without (h : JobSound j) (hb : b ∈ j.bursts)
    (counted : n = 1 ∧ (j.isRunning = true ∨ b.state = .writing) ∨ n = 0 ∧ j.isRunning = false) :
    JobFit { j with done := j.done + n, bursts := j.bursts.filter fun c => c.index ≠ b.index } := by
  obtain ⟨⟨limit, next, count, rising, bursts, done, running, fault, place, saturation⟩,
    active, draining, ending, posting⟩ := h
  have perm := perm_without rising hb
  have length := perm.length_eq
  have writing := perm.countP_eq fun b => decide (b.state = .writing)
  rw [List.length_cons] at length
  rw [List.countP_cons] at writing
  have idle : j.state ≠ .posting := fun e => by
    rw [(posting e).1] at hb
    cases hb
  simp only [Job.inFlight] at limit done running
  refine ⟨⟨?_, next, count, rising.filter _, fun c hc => bursts c (List.mem_filter.1 hc).1, ?_, fun hr => ?_, fun hf => ?_,
    place, saturation⟩, active, fun e => (draining e).1, fun e => (ending e).2, fun e => absurd e idle⟩
  · have : j.limit = Job.limit { j with
        done := j.done + n, bursts := j.bursts.filter fun c => c.index ≠ b.index } := rfl
    simp only [Job.inFlight, ← this]
    omega
  · simp only [Job.inFlight]
    omega
  · obtain ⟨status, total, good⟩ := running hr
    refine ⟨status, ?_, fun c hc => good c (List.mem_filter.1 hc).1⟩
    have : n = 1 := counted.elim And.left fun e => nomatch hr.symm.trans e.2
    simp only [Job.inFlight]
    omega
  · have short := fault hf
    have here : b.state = .writing ∨ n = 0 := by
      rcases counted with ⟨-, hr | hw⟩ | ⟨e, -⟩
      · rw [(running hr).1] at hf
        cases hf
      · exact .inl hw
      · exact .inr e
    simp only [writingCount] at short ⊢
    rcases here with hw | e
    · simp only [hw, decide_true, if_true] at writing
      omega
    · omega

/-- A job record in ENDING, with the bursts that stay in flight (R65). -/
def Job.ended (j : Job) : Job := { j with state := .ending, bursts := burstsAtEnding j.bursts }

theorem length_burstsAtEnding (l : List Burst) : (burstsAtEnding l).length ≤ l.length := by
  rw [burstsAtEnding_eq, List.length_map]
  exact List.length_filter_le _ _

theorem writing_burstsAtEnding (l : List Burst) :
    (burstsAtEnding l).countP (fun b => b.state = .writing) ≤ l.countP fun b => b.state = .writing && !b.failed := by
  rw [burstsAtEnding_eq, List.countP_map, List.countP_filter]
  refine List.countP_mono_left fun b _ h => ?_
  simp only [Function.comp_apply, state_withdraw, Bool.and_eq_true, decide_eq_true_eq] at h
  obtain ⟨writing, stays⟩ := h
  simpa [staysInFlight, writing] using stays

/-- A job that was ACTIVE or DRAINING enters ENDING: a fault leaves a burst uncounted, one not issued or one that failed. -/
theorem jobFit_ended (h : JobSound j) (running : j.isRunning = true) {f : Burst → Burst} {st : Status}
    {place : Option FaultPlace} (cursor : Option Cursor) (index : ∀ b ∈ j.bursts, (f b).index = b.index)
    (sound : ∀ b ∈ j.bursts, staysInFlight (f b) = true → BurstSound (f b)) (notOk : st ≠ .ok)
    (placed : place.isSome ↔ isFault st = true)
    (short : isFault st = true → j.next < j.command.count ∨ ∃ b ∈ j.bursts, (f b).failed = true) :
    JobFit (Job.ended { j with cursor := cursor, bursts := j.bursts.map f, status := some st, place := place }) := by
  obtain ⟨⟨limit, next, count, rising, bursts, done, live, -, -, saturation⟩, -⟩ := h
  obtain ⟨-, total, -⟩ := live running
  have length : (burstsAtEnding (j.bursts.map f)).length ≤ j.bursts.length :=
    (length_burstsAtEnding _).trans (List.length_map f).le
  refine ⟨⟨length.trans limit, next, count, ?_, fun c hc => ?_, ?_, nofun, fun hf => ?_, placed, saturation⟩,
    nofun, nofun, fun _ => ⟨st, rfl, notOk⟩, nofun⟩
  · simp only [Job.ended, burstsAtEnding_eq]
    refine List.pairwise_map.2 (List.Pairwise.filter _ (List.pairwise_map.2 (rising.imp_of_mem fun {b c} hb hc lt => ?_)) |>.imp
      fun {b c} lt => by rw [index_withdraw, index_withdraw]; exact lt)
    rw [index b hb, index c hc]
    exact lt
  · simp only [Job.ended, burstsAtEnding_eq] at hc
    obtain ⟨x, hx, rfl⟩ := List.mem_map.1 hc
    obtain ⟨hx, stays⟩ := List.mem_filter.1 hx
    obtain ⟨b, hb, rfl⟩ := List.mem_map.1 hx
    rw [index_withdraw, index b hb]
    exact ⟨(bursts b hb).1, burstSound_withdraw (sound b hb stays)⟩
  · simp only [Job.ended, Job.inFlight] at done ⊢
    omega
  · have fewer := writing_burstsAtEnding (j.bursts.map f)
    have all := List.countP_le_length (p := fun b => decide (b.state = .writing) && !b.failed) (l := j.bursts.map f)
    rw [List.length_map] at all
    simp only [Job.ended, writingCount, Job.inFlight] at total ⊢
    rcases short hf with more | ⟨b, hb, failed⟩
    · omega
    · have : (j.bursts.map f).countP (fun b => decide (b.state = .writing) && !b.failed) < (j.bursts.map f).length := by
        refine List.countP_lt_length_iff.2 ⟨f b, List.mem_map_of_mem hb, ?_⟩
        simp [failed]
      rw [List.length_map] at this
      omega

end Sys2Proof.Laws

/-!
PROOFS. The engine's turns (chapters 04, 06, 08): each happening of a burst, a fault and a cancel leaves the job in its
slot as one of three things, with what that job record is then known to be.
-/

namespace Sys2Proof.Laws

open Sys2Proof.Machine Sys2Proof.Safety

variable {s t u v : State} {q : QueueId} {i k : SlotId} {j l m : Job} {b c : Burst} {role : RequestRole} {a n : Nat}
  {g : RequestRole → Nat → Prop} {r : ReadRequest} {w : WriteRequest}

/-- What the interlock sees of a burst: its index, its destination, and whether it waits. -/
def lockView (b : Burst) : Nat × List Place × Bool := (b.index, b.dests, decide (b.state = .lockWait))

/-- What is left of a job once the request of burst n that g describes is over. -/
structure Handled (j m : Job) (n : Nat) (g : RequestRole → Nat → Prop) : Prop where
  command : m.command = j.command
  fit : JobFit m
  sent : ∀ o role a, SentIn m.bursts o role a ↔ SentIn j.bursts o role a ∧ ¬(o = n ∧ g role a)
  strayed : NoneStrayed j.bursts → NoneStrayed m.bursts

/-- What a turn of the engine makes of the job in its slot: the job is put back with its bursts; one of its bursts leaves;
or it enters ENDING. In the last two cases the job may be over. -/
inductive Turn (s : State) (i : SlotId) (j : Job) (n : Nat) (g : RequestRole → Nat → Prop) : State → Prop
  | put (m : Job) (facts : JobSound j → Handled j m n g ∧ m.isOver = false ∧ m.state = j.state ∧
      m.bursts.map lockView = j.bursts.map lockView) : Turn s i j n g (s.setSlot i (some m))
  | leave (m : Job) (b : Burst) (facts : JobSound j → Handled j m n g ∧ m.state = j.state ∧ b ∈ j.bursts ∧
      b.state ≠ .lockWait ∧ m.bursts = j.bursts.filter fun c => c.index ≠ b.index) :
      Turn s i j n g (((s.setSlot i (some m)).releaseEntry i b.index).finishIfOver i)
  | ending (u : State) (l : Job) (told : u = s ∨ ∃ q f n, u = s.reportJobFault q f n)
      (facts : JobSound j → Handled j (Job.ended l) n g ∧ j.isRunning = true ∧
        l.bursts.map lockView = j.bursts.map lockView) :
      Turn s i j n g ((u.applyEnding i l).finishIfOver i)

/-! ### Turns from what a burst becomes -/

theorem lockView_putBurst (rising : j.bursts.Pairwise fun b c => b.index < c.index) (hb : b ∈ j.bursts)
    (view : lockView c = lockView b) : (j.putBurst c).bursts.map lockView = j.bursts.map lockView := by
  have hi : c.index = b.index := congrArg Prod.fst view
  rw [Job.putBurst, List.map_map]
  refine List.map_congr_left fun x hx => ?_
  rw [Function.comp_apply]
  split
  · rename_i same
    rw [eq_of_index rising hx hb (same.trans hi), view]
  · rfl

theorem turn_putBurst (hb : b ∈ j.bursts) (saturation : JobSound j → n ≤ Config.saturationLimit)
    (facts : JobSound j → BurstSound c ∧ lockView c = lockView b ∧ (j.isRunning = true → c.failed = false) ∧
      (j.isRunning = true ∨ (c.state = .writing → b.state = .writing)) ∧ (Strayed c → Strayed b) ∧
      ∀ role a, hasSent role a c ↔ hasSent role a b ∧ ¬g role a) :
    Turn s i j b.index g (s.setSlot i (some { j.putBurst c with saturation := n })) := by
  refine .put _ fun sound => ?_
  obtain ⟨hc, view, good, writing, strayed, left⟩ := facts sound
  have hi : c.index = b.index := congrArg Prod.fst view
  obtain ⟨⟨limit, next, count, rising, bursts, done, running, fault, place, -⟩, phased⟩ :=
    jobSound_putBurst sound hb hi hc good writing
  have put : JobSound { j.putBurst c with saturation := n } :=
    ⟨⟨limit, next, count, rising, bursts, done, running, fault, place, saturation sound⟩, phased⟩
  obtain ⟨fit, more⟩ := (jobSound_iff _).1 put
  exact ⟨⟨rfl, fit, fun _ _ _ => sentIn_putBurst sound.rising hb hi left, noneStrayed_putBurst hb strayed⟩, more, rfl,
    lockView_putBurst sound.rising hb view⟩

theorem turn_leave (hb : b ∈ j.bursts) (facts : JobSound j →
      (n = 1 ∧ (j.isRunning = true ∨ b.state = .writing) ∨ n = 0 ∧ j.isRunning = false) ∧ b.state ≠ .lockWait ∧
      ∀ role a, hasSent role a b → g role a) :
    Turn s i j b.index g (afterBurst s i { j with done := j.done + n } b.index) := by
  rw [afterBurst, ← finishIfOver_releaseEntry]
  refine .leave _ b fun sound => ?_
  obtain ⟨counted, free, none⟩ := facts sound
  exact ⟨⟨rfl, jobFit_without sound hb counted, fun _ _ _ => sentIn_without sound.rising hb none,
    fun h c hc => h c (List.mem_filter.1 hc).1⟩, rfl, hb, free, rfl⟩

theorem turn_awaitOrEnd (hb : b ∈ j.bursts) (hi : c.index = b.index) (facts : JobSound j →
      j.isRunning = false ∧ BurstSound c ∧ lockView c = lockView b ∧ b.state = .reading ∧ c.state = .reading ∧
      (Strayed c → Strayed b) ∧ ∀ role a, hasSent role a c ↔ hasSent role a b ∧ ¬g role a) :
    Turn s i j b.index g (s.awaitOrEnd i j c) := by
  rw [awaitOrEnd_eq, afterDiscard, hi]
  split
  · refine turn_putBurst (n := j.saturation) hb (fun sound => sound.1.2.2.2.2.2.2.2.2.2) fun sound => ?_
    obtain ⟨ended, hc, view, -, reading, strayed, left⟩ := facts sound
    exact ⟨hc, view, fun hr => (nomatch ended.symm.trans hr), .inr fun hw => (nomatch reading.symm.trans hw), strayed, left⟩
  · rename_i quiet
    refine turn_leave (n := 0) hb fun sound => ?_
    obtain ⟨ended, hc, -, hread, reading, -, left⟩ := facts sound
    refine ⟨.inr ⟨rfl, ended⟩, by rw [hread]; exact nofun, fun role a sent => ?_⟩
    by_contra other
    exact not_hasSent hc reading (Bool.eq_false_iff.2 quiet) ((left role a).2 ⟨sent, other⟩)

/-- A first fault that marks a burst failed. -/
theorem turn_firstFault (hb : b ∈ j.bursts) (f : PlacedFault) (facts : JobSound j →
      j.isRunning = true ∧ c.failed = true ∧ lockView c = lockView b ∧ (staysInFlight c = true → BurstSound c) ∧
      (Strayed c → Strayed b) ∧ ∀ role a, hasSent role a c ∧ staysInFlight c = true ↔ hasSent role a b ∧ ¬g role a) :
    Turn s i j b.index g (s.firstFault i (j.putBurst c) f) := by
  refine .ending _ { j.putBurst c with status := some (.fault f.fault), place := some f.place } (.inr ⟨_, _, _, rfl⟩)
    fun sound => ?_
  obtain ⟨running, failed, view, hc, strayed, left⟩ := facts sound
  have hi : c.index = b.index := congrArg Prod.fst view
  refine ⟨⟨rfl, ?_, fun _ _ _ => sentIn_ended_putBurst sound.rising hb (fun b hb => (sound.burst hb).2) hi left,
    fun h => noneStrayed_ended (noneStrayed_putBurst hb strayed h)⟩, running, lockView_putBurst sound.rising hb view⟩
  refine jobFit_ended sound running j.cursor (fun x hx => ?_) (fun x hx stays => ?_) nofun (by simp [isFault])
    fun _ => .inr ⟨b, hb, ?_⟩
  · split
    · exact Eq.symm ‹_›
    · rfl
  · split at stays
    · rw [if_pos ‹_›]
      exact hc stays
    · rw [if_neg ‹_›]
      exact (sound.burst hx).2
  · rw [if_pos hi.symm]
    exact failed

/-- A job enters ENDING with the bursts it has. -/
theorem handled_ended (sound : JobSound j) (running : j.isRunning = true) {st : Status} {place : Option FaultPlace}
    (cursor : Option Cursor) (notOk : st ≠ .ok) (placed : place.isSome ↔ isFault st = true)
    (short : isFault st = true → j.next < j.command.count) (n : Nat) :
    Handled j (Job.ended { j with cursor := cursor, status := some st, place := place }) n fun _ _ => False := by
  refine ⟨rfl, ?_, fun o role a => ?_, noneStrayed_ended⟩
  · have fit := jobFit_ended (f := id) sound running cursor (fun _ _ => rfl) (fun b hb _ => (sound.burst hb).2) notOk placed
      fun h => .inl (short h)
    rwa [List.map_id] at fit
  · have same := sentIn_ended_same (n := o) (role := role) (a := a) fun b hb => (sound.burst (b := b) hb).2
    exact same.trans (by simp)

theorem turn_issueFails (may : j.mayIssue = true) (cursor : Option Cursor) (f : PlacedFault) :
    Turn s i j n (fun _ _ => False) (s.firstFault i { j with cursor := cursor } f) := by
  obtain ⟨active, more, -⟩ := (mayIssue_iff j).1 may
  have running : j.isRunning = true := by simp [Job.isRunning, active]
  exact .ending _ { j with cursor := cursor, status := some (.fault f.fault), place := some f.place }
    (.inr ⟨_, _, _, rfl⟩) fun sound =>
      ⟨handled_ended (st := .fault f.fault) (place := some f.place) sound running cursor nofun (by simp [isFault])
        (fun _ => more) n, running, rfl⟩

theorem turn_cancel (running : j.isRunning = true) :
    Turn s i j n (fun _ _ => False) ((s.applyEnding i { j with status := some .cancelled }).finishIfOver i) :=
  .ending s { j with status := some .cancelled } (.inl rfl) fun sound => by
    have place := (running_facts sound.1 sound.2 running).1
    exact ⟨handled_ended (st := .cancelled) (place := j.place) sound running j.cursor nofun (by simp [place, isFault])
      nofun n, running, rfl⟩

/-! ### The turns of reads and writes -/

theorem burstSound_failRead (h : BurstSound b) (reading : b.state = .reading) (r : ReadRequest) :
    BurstSound (b.failRead r) := by
  obtain ⟨lock, writes, -, sources, dests, reads, ext⟩ :=
    burstSound_filterReads (burstSound_filterReads h fun x => x ≠ r) fun x => !x.isWaiting
  exact ⟨lock, writes, fun e => (nomatch reading.symm.trans e), sources, dests, reads, ext⟩

theorem turn_combine (slot : s.slot i = some j) (hb : b ∈ j.bursts) (view : lockView c = lockView b)
    (facts : JobSound j → j.isRunning = true ∧ BurstSound c ∧ c.failed = false ∧ b.state = .reading ∧ c.state = .reading ∧
      c.reads.all hasReturned = true ∧ (Strayed c → Strayed b) ∧ ∀ role a, hasSent role a c ↔ hasSent role a b ∧ ¬g role a) :
    ∃ x, Turn { s with segments := x } i j b.index g (s.combine i j c) := by
  have hi : c.index = b.index := congrArg Prod.fst view
  have none : c.reads.all hasReturned = true → c.reads.any ReadRequest.isSent = false := fun all => by
    refine List.any_eq_false.2 fun x hx sent => ?_
    have returned := List.all_eq_true.1 all x hx
    have : x.stage = .sent := by simpa [ReadRequest.isSent] using sent
    simp [hasReturned, ReadRequest.words?, this] at returned
  by_cases tabload : ∃ source a start, j.command.work = .tabload source a start
  · obtain ⟨source, a, start, work⟩ := tabload
    rw [combine_tabload slot work, hi]
    refine ⟨_, turn_leave (n := 1) hb fun sound => ?_⟩
    obtain ⟨running, hc, -, hread, reading, all, -, left⟩ := facts sound
    refine ⟨.inl ⟨rfl, .inl running⟩, by rw [hread]; exact nofun, fun role a sent => ?_⟩
    by_contra other
    exact not_hasSent hc reading (none all) ((left role a).2 ⟨sent, other⟩)
  · have move : j.command.work.kind = .move := by
      cases work : j.command.work with
      | tabload source a start => exact absurd ⟨source, a, start, work⟩ tabload
      | copy | fill | accum | merge | spread => rfl
    rw [combine_move move]
    refine ⟨s.segments, turn_putBurst (c := c.startWriting (c.combined j.command.work).1) hb
      (fun _ => Nat.min_le_right _ _) fun sound => ?_⟩
    obtain ⟨running, hc, good, hread, reading, all, strayed, left⟩ := facts sound
    refine ⟨burstSound_startWriting hc all good _, ?_, fun _ => good, .inl running,
      fun h => strayed (strayed_startWriting h), fun role a => ?_⟩
    · rw [← view]
      simp [lockView, Burst.startWriting, reading]
    · rw [← left role a]
      refine iff_of_false (fun sent => ?_) (not_hasSent hc reading (none all))
      cases role with
      | read r =>
        obtain ⟨x, hx, sent, -⟩ := hasSent_read.1 sent
        exact List.any_eq_false.1 (none all) x hx sent
      | write =>
        obtain ⟨x, hx, sent, -⟩ := hasSent_write.1 sent
        obtain ⟨p, -, rfl⟩ := List.mem_map.1 hx
        cases sent

/-- A read that has not returned comes back, or fails. -/
theorem turn_readReturns (slot : s.slot i = some j) (hb : b ∈ j.bursts) (hr : r ∈ b.reads) (waits : hasReturned r = false)
    (o : ReadOutcome) : ∃ x, Turn { s with segments := x } i j b.index (isRead r) (s.readReturns i j b r o) := by
  have reading : JobSound j → b.state = .reading := fun sound => reading_of_open (sound.burst hb).2 hr waits
  have ended : JobSound j → ¬(j.isRunning && !b.failed) = true → j.isRunning = false := fun sound h =>
    Bool.eq_false_iff.2 fun running => h (by rw [running, sound.good running hb]; rfl)
  unfold State.readReturns
  split
  · rename_i d
    have view : lockView (b.setRead r (.returned d)) = lockView b := rfl
    split
    · rename_i good
      obtain ⟨running, good⟩ := Bool.and_eq_true_iff.1 good
      have good : b.failed = false := by simpa using good
      dsimp only
      split
      · rename_i all
        exact turn_combine slot hb view fun sound => ⟨running, burstSound_setRead (sound.burst hb).2 (reading sound) _, good,
          reading sound, reading sound, all, strayed_returned, fun role a => hasSent_returned (sound.burst hb).2 hr d⟩
      · exact ⟨s.segments, turn_putBurst (n := j.saturation) hb (fun sound => sound.1.2.2.2.2.2.2.2.2.2) fun sound =>
          ⟨burstSound_setRead (sound.burst hb).2 (reading sound) _, view, fun _ => good, .inl running,
            strayed_returned, fun role a => hasSent_returned (sound.burst hb).2 hr d⟩⟩
    · rename_i late
      exact ⟨s.segments, turn_awaitOrEnd hb rfl fun sound => ⟨ended sound late,
        burstSound_filterReads (sound.burst hb).2 _, rfl, reading sound, reading sound,
        strayed_dropRead, fun role a => hasSent_dropRead (sound.burst hb).2 hr⟩⟩
  · rename_i f
    split
    · rename_i good
      obtain ⟨running, -⟩ := Bool.and_eq_true_iff.1 good
      refine ⟨s.segments, turn_firstFault hb f fun sound => ?_⟩
      have hc := burstSound_failRead (sound.burst hb).2 (reading sound) r
      refine ⟨running, rfl, rfl, fun _ => hc, strayed_failRead, fun role a => ?_⟩
      rw [← hasSent_failRead (sound.burst hb).2 hr]
      exact ⟨And.left, fun sent => ⟨sent, stays_of_hasSent hc sent⟩⟩
    · rename_i late
      exact ⟨s.segments, turn_awaitOrEnd hb rfl fun sound => ⟨ended sound late,
        burstSound_failRead (sound.burst hb).2 (reading sound) r, rfl, reading sound, reading sound,
        strayed_failRead, fun role a => hasSent_failRead (sound.burst hb).2 hr⟩⟩

/-- A write of a burst is done. -/
theorem turn_writeDone (hb : b ∈ j.bursts) (hw : w ∈ b.writes) :
    Turn s i j b.index (isWrite w) (s.writeDone i j b w) := by
  have writing : JobSound j → b.state = .writing := fun sound => writing_of_write (sound.burst hb).2 hw
  by_cases more : ∃ x ∈ b.writes, x ≠ w ∧ x.stage ≠ .done
  · rw [writeDone_more more]
    refine turn_putBurst (n := j.saturation) hb (fun sound => sound.1.2.2.2.2.2.2.2.2.2) fun sound => ?_
    exact ⟨burstSound_setWrite (sound.burst hb).2 (writing sound) _, rfl, fun running => sound.good (b := b) running hb,
      .inr fun _ => writing sound, strayed_setWrite, fun role a => hasSent_setWrite (sound.burst hb).2 hw⟩
  · have last : ∀ x ∈ b.writes, x = w ∨ x.stage = .done := fun x hx => by
      by_contra h
      exact more ⟨x, hx, not_or.1 h⟩
    rw [writeDone_last s i j b w last]
    refine turn_leave (n := 1) hb fun sound =>
      ⟨.inl ⟨rfl, .inr (writing sound)⟩, by rw [writing sound]; exact nofun, fun role a sent => ?_⟩
    rcases hasSent_state (sound.burst hb).2 sent with ⟨-, reading, -⟩ | ⟨rfl, -⟩
    · exact nomatch (writing sound).symm.trans reading
    · obtain ⟨x, hx, sent, place⟩ := hasSent_write.1 sent
      rcases last x hx with rfl | done
      · exact ⟨rfl, place⟩
      · exact nomatch sent.symm.trans done

/-- A burst's external write fails. -/
theorem turn_writeFails (slot : s.slot i = some j) (hb : b ∈ j.bursts) (hw : w ∈ b.writes) (place : w.place.isExt = true)
    (f : PlacedFault) : Turn s i j b.index (isWrite w) (s.writeFails i j b f) := by
  have writing : JobSound j → b.state = .writing := fun sound => writing_of_write (sound.burst hb).2 hw
  have only : JobSound j → ∀ role a, hasSent role a b → isWrite w role a := fun sound role a sent => by
    rcases hasSent_state (sound.burst hb).2 sent with ⟨-, reading, -⟩ | ⟨rfl, -⟩
    · exact nomatch (writing sound).symm.trans reading
    · obtain ⟨x, hx, -, at_⟩ := hasSent_write.1 sent
      obtain ⟨-, -, -, -, -, -, unique⟩ := (sound.burst hb).2
      have : x = w := eq_of_countP_le_one unique hx hw (by simp [at_, Place.isExt]) place
      exact ⟨rfl, this ▸ at_⟩
  unfold State.writeFails
  split
  · rename_i running
    refine turn_firstFault hb f fun sound => ?_
    have gone : staysInFlight { b with failed := true } = false := by simp [staysInFlight, writing sound]
    refine ⟨running, rfl, rfl, fun stays => (nomatch gone.symm.trans stays), id, fun role a => iff_of_false (fun e => ?_) fun e => ?_⟩
    · exact nomatch gone.symm.trans e.2
    · exact e.2 (only sound role a e.1)
  · rename_i ended
    rw [endBurst_of_slot slot]
    exact turn_leave (n := 0) hb fun sound => ⟨.inr ⟨rfl, Bool.eq_false_iff.2 ended⟩,
      by rw [writing sound]; exact nofun, only sound⟩

/-- The role and address of the request a BUSY ID carries. -/
def isRequest (o : BusyId) (role : RequestRole) (a : Nat) : Prop := role = o.role ∧ a = o.address

theorem isRequest_read {o : BusyId} {p : ReadRole} (hrole : o.role = .read p) (role : r.role = p)
    (place : r.place = .ext o.address) : isRead r = isRequest o := by
  funext x a
  simp [isRead, isRequest, hrole, role, place, eq_comm]

theorem isRequest_write {o : BusyId} (hrole : o.role = .write) (place : w.place = .ext o.address) :
    isWrite w = isRequest o := by
  funext x a
  simp [isWrite, isRequest, hrole, place, eq_comm]

/-- The outcome of a request that its burst carries. -/
theorem turn_carried {o : BusyId} (slot : s.slot o.slot = some j)
    (burst : j.bursts.find? (fun c => c.index = o.burst) = some b) (carried : carries o b = true) (x : ExtOutcome) :
    ∃ y, Turn { s with segments := y } o.slot j o.burst (isRequest o) (s.deliver o x) := by
  have hb := List.mem_of_find?_eq_some burst
  have hi : b.index = o.burst := by simpa using List.find?_some burst
  cases hrole : o.role with
  | read p =>
    obtain ⟨r, found⟩ := carries_read hrole carried
    obtain ⟨⟨sent, role⟩, place⟩ : (r.isSent = true ∧ r.role = p) ∧ r.place = .ext o.address := by
      simpa using List.find?_some found
    have open_ : hasReturned r = false := by
      have : r.stage = .sent := by simpa [ReadRequest.isSent] using sent
      simp [hasReturned, ReadRequest.words?, this]
    rw [deliver_read slot burst hrole found, ← hi, ← isRequest_read hrole role place]
    exact turn_readReturns slot hb (List.mem_of_find?_eq_some found) open_ _
  | write =>
    obtain ⟨w, found⟩ := carries_write hrole carried
    obtain ⟨-, place⟩ : w.stage = .sent ∧ w.place = .ext o.address := by simpa using List.find?_some found
    have hw := List.mem_of_find?_eq_some found
    rw [← hi, ← isRequest_write hrole place]
    cases x with
    | ok d =>
      rw [deliver_written slot burst hrole found]
      exact ⟨s.segments, turn_writeDone hb hw⟩
    | failed f =>
      rw [deliver_unwritten slot burst hrole found]
      exact ⟨s.segments, turn_writeFails slot hb hw (by rw [place]; rfl) _⟩

/-- What an accepted request comes to: a turn of the job it names, or nothing if no burst there carries it. -/
theorem turn_deliver (s : State) (o : BusyId) (x : ExtOutcome) :
    s.deliver o x = s ∨ ∃ j b y, s.slot o.slot = some j ∧ b ∈ j.bursts ∧ b.index = o.burst ∧
      Turn { s with segments := y } o.slot j o.burst (isRequest o) (s.deliver o x) := by
  cases owner : s.owner o with
  | none => exact .inl (by simp only [State.deliver, owner])
  | some p =>
    obtain ⟨j, b⟩ := p
    obtain ⟨slot, burst⟩ := owner_slot owner
    cases carried : carries o b with
    | true =>
      obtain ⟨y, turn⟩ := turn_carried slot burst carried x
      exact .inr ⟨j, b, y, slot, List.mem_of_find?_eq_some burst, by simpa using List.find?_some burst, turn⟩
    | false =>
      left
      unfold carries at carried
      cases hrole : o.role with
      | read p =>
        simp only [hrole] at carried
        have none : b.reads.find? (fun r => r.isSent && r.role = p && r.place = .ext o.address) = none :=
          List.find?_eq_none.2 (List.any_eq_false.1 carried)
        simp only [State.deliver, owner, hrole, none]
      | write =>
        simp only [hrole] at carried
        have none : b.writes.find? (fun w => w.stage = .sent && w.place = .ext o.address) = none :=
          List.find?_eq_none.2 (List.any_eq_false.1 carried)
        simp only [State.deliver, owner, hrole, none]

end Sys2Proof.Laws

/-!
PROOFS. Every job record and every completion record is sound after each step (O54): what a turn leaves before the job may
finish, the finish, the entries, and the happenings.
-/

namespace Sys2Proof.Laws

open Sys2Proof.Machine Sys2Proof.Safety

variable {s t u v : State} {q : QueueId} {i k : SlotId} {j l m : Job} {b c : Burst} {role : RequestRole} {a n : Nat}
  {g : RequestRole → Nat → Prop} {stores : Bool}

/-! ### What a turn leaves before the job may finish -/

/-- The job in the slot is the given one and other slots hold the jobs they held, but for grants of the interlock; queues
move, and the records are as they were. -/
structure Turned (s v : State) (i : SlotId) (m : Job) : Prop where
  mine : Granted (some m) (v.slot i)
  others : ∀ k, k ≠ i → Granted (s.slot k) (v.slot k)
  queues : ∀ q, Moved (s.queue q) (v.queue q)
  fifo : v.completion.fifo = s.completion.fifo
  view : v.completion.view = s.completion.view

theorem turned_setSlot (s : State) (i : SlotId) (m : Job) : Turned s (s.setSlot i (some m)) i m :=
  ⟨slot_setSlot_self s i _ ▸ .refl _, fun k hk => slot_setSlot_ne s i k _ (Ne.symm hk) ▸ .refl _, fun _ => .refl _, rfl, rfl⟩

theorem turned_releaseEntry (s : State) (i : SlotId) (m : Job) (n : Nat) :
    Turned s ((s.setSlot i (some m)).releaseEntry i n) i m := by
  have put := turned_setSlot s i m
  have keep := slotsAndLocks_releaseEntry (s.setSlot i (some m)) i n
  exact ⟨put.mine.trans (granted_releaseEntry _ i n i), fun k hk => (put.others k hk).trans (granted_releaseEntry _ i n k),
    fun q => by rw [keep.queue]; exact put.queues q, congrArg Completion.fifo keep.completion, keep.view⟩

theorem rising_of_view {l : List Burst} (rising : j.bursts.Pairwise fun b c => b.index < c.index)
    (view : l.map lockView = j.bursts.map lockView) : l.Pairwise fun b c => b.index < c.index := by
  have : (l.map lockView).Pairwise fun x y => x.1 < y.1 := view ▸ List.pairwise_map.2 rising
  exact (List.pairwise_map (f := lockView)).1 this

theorem slots_reportJobFault (s : State) (q : QueueId) (f : JobFault) (n : BitVec 16) :
    (s.reportJobFault q f n).slots = s.slots ∧ (s.reportJobFault q f n).interlock = s.interlock := by
  unfold State.reportJobFault
  split <;> exact ⟨rfl, rfl⟩

theorem turned_applyEnding (told : u = s ∨ ∃ q f n, u = s.reportJobFault q f n)
    (rising : l.bursts.Pairwise fun b c => b.index < c.index) : Turned s (u.applyEnding i l) i (Job.ended l) := by
  have slots : u.slots = s.slots := by
    rcases told with rfl | ⟨q, f, n, rfl⟩
    · rfl
    · exact (slots_reportJobFault s q f n).1
  have queues : ∀ q, Moved (s.queue q) (u.queue q) := by
    rcases told with rfl | ⟨q, f, n, rfl⟩
    · exact fun _ => .refl _
    · exact (shift_reportJobFault s q f n).queues
  have records : u.completion.fifo = s.completion.fifo ∧ u.completion.view = s.completion.view := by
    rcases told with rfl | ⟨q, f, n, rfl⟩
    · exact ⟨rfl, rfl⟩
    · exact ⟨(postersKept_reportJobFault s q f n).fifo, (outside_reportJobFault s q f n).view⟩
  have keep := slotsAndLocks_applyEnding u i l
  refine ⟨slot_applyEnding u i rising ▸ .refl _, fun k hk => ?_, fun q => by rw [keep.queue]; exact queues q,
    (congrArg Completion.fifo keep.completion).trans records.1, keep.view.trans records.2⟩
  have := granted_applyEnding u l hk
  rwa [State.slot, slots] at this

/-- A turn is a turned state, or the finish of one. -/
theorem turn_turned (h : Turn s i j n g t) (sound : JobSound j) : ∃ v m, Turned s v i m ∧ Handled j m n g ∧
    (t = v ∧ m.isOver = false ∨ t = v.finishIfOver i) := by
  cases h with
  | put m facts =>
    obtain ⟨handled, more, -⟩ := facts sound
    exact ⟨_, m, turned_setSlot s i m, handled, .inl ⟨rfl, more⟩⟩
  | leave m b facts => exact ⟨_, m, turned_releaseEntry s i m _, (facts sound).1, .inr rfl⟩
  | ending u l told facts =>
    obtain ⟨handled, -, view⟩ := facts sound
    exact ⟨_, _, turned_applyEnding told (rising_of_view sound.rising view), handled, .inr rfl⟩

/-! ### Grants keep job records sound -/

theorem granted_fit {x y : Option Job} (h : Granted x y) (fit : ∀ j, x = some j → JobFit j) : ∀ j, y = some j → JobFit j := by
  intro k hk
  cases x with
  | none => rw [h.1 rfl] at hk; cases hk
  | some j =>
    obtain ⟨f, hf, hy⟩ := h.2 j rfl
    cases Option.some.inj (hy.symm.trans hk)
    obtain ⟨index, sound, good, writing⟩ := granted_map hf
    obtain ⟨bounded, almost⟩ := fit j rfl
    have bursts := bounded.2.2.2.2.1
    have live := bounded.2.2.2.2.2.2.1
    exact ⟨jobBounded_map bounded (fun b _ => index b) (fun b hb => sound b (bursts b hb).2)
      (fun hr b hb => (good b).trans ((live hr).2.2 b hb)) (.inr fun b _ => writing b), jobAlmost_map almost⟩

theorem granted_over {x y : Option Job} (h : Granted x y) (more : ∀ j, x = some j → j.isOver = false) :
    ∀ j, y = some j → j.isOver = false := by
  intro k hk
  cases x with
  | none => rw [h.1 rfl] at hk; cases hk
  | some j =>
    obtain ⟨f, -, hy⟩ := h.2 j rfl
    cases Option.some.inj (hy.symm.trans hk)
    exact isOver_map.trans (more j rfl)

/-- Every job record that the slot may hold is sound. -/
def SlotSound (x : Option Job) : Prop := ∀ j, x = some j → JobSound j

theorem slotSound_iff (x : Option Job) :
    SlotSound x ↔ (∀ j, x = some j → JobFit j) ∧ ∀ j, x = some j → j.isOver = false :=
  ⟨fun h => ⟨fun j hj => ((jobSound_iff j).1 (h j hj)).1, fun j hj => ((jobSound_iff j).1 (h j hj)).2⟩,
    fun h j hj => (jobSound_iff j).2 ⟨h.1 j hj, h.2 j hj⟩⟩

theorem slotSound_granted {x y : Option Job} (h : Granted x y) (sound : SlotSound x) : SlotSound y := by
  obtain ⟨fit, more⟩ := (slotSound_iff x).1 sound
  exact (slotSound_iff y).2 ⟨granted_fit h fit, granted_over h more⟩

/-! ### The finish -/

theorem settledStatus_fault (fit : JobFit j) (isOver : j.isOver = true) :
    (isFault j.settledStatus = true ↔ j.status.any isFault = true) ∧
      (j.settledStatus = .ok ↔ j.done = j.command.count) := by
  obtain ⟨⟨-, -, -, -, -, -, running, fault, -, -⟩, -, draining, ending, -⟩ := fit
  obtain ⟨none, state | state⟩ := (isOver_iff j).1 isOver
  · obtain ⟨status, total, -⟩ := running (by simp [Job.isRunning, state])
    have last := draining state
    simp only [Job.inFlight, none, List.length_nil] at total
    simp only [Job.settledStatus, state, status]
    exact ⟨by simp [isFault], by simp; omega⟩
  · obtain ⟨st, status, notOk⟩ := ending state
    cases st with
    | ok => exact absurd rfl notOk
    | cancelled =>
      simp only [Job.settledStatus, state, status]
      split <;> simp [isFault, *]
    | fault f =>
      have short := fault (by rw [status]; rfl)
      simp only [Job.settledStatus, state, status]
      refine ⟨by simp [isFault], by simp; omega⟩

/-- A job that waits to post its record is sound. -/
theorem jobSound_posting (fit : JobFit j) (isOver : j.isOver = true) :
    JobSound { Job.settled j with state := .posting } := by
  obtain ⟨faults, complete⟩ := settledStatus_fault fit isOver
  obtain ⟨none, -⟩ := (isOver_iff j).1 isOver
  obtain ⟨⟨limit, next, count, rising, bursts, done, -, fault, place, saturation⟩, -⟩ := fit
  exact ⟨⟨limit, next, count, rising, bursts, done, nofun, fun hf => fault (faults.1 hf), place.trans faults.symm, saturation⟩,
    nofun, nofun, nofun, fun _ => ⟨none, _, rfl, complete⟩⟩

theorem recordSound_settled (fit : JobFit j) (isOver : j.isOver = true) : RecordSound (Job.record (Job.settled j)) := by
  obtain ⟨faults, -⟩ := settledStatus_fault fit isOver
  obtain ⟨⟨-, next, count, -, -, done, -, -, place, saturation⟩, -⟩ := fit
  exact ⟨place.trans faults.symm, by simp only [Job.settled]; omega, saturation⟩

theorem jobSound_enter (q : QueueId) (n : BitVec 16) {c : JobCommand} (bound : 1 ≤ c.count ∧ c.count ≤ 8192) :
    JobSound (Job.enter q n c) := by
  refine ⟨⟨Nat.zero_le _, Nat.zero_le _, bound.2, .nil, nofun, Nat.le_refl _, fun _ => ⟨rfl, rfl, nofun⟩, nofun, by simp [Job.enter],
    Nat.zero_le _⟩, fun _ => bound.1, nofun, nofun, nofun⟩

/-- The job at the head of a queue that waits for a slot has a legal length (R26). -/
theorem bound_of_stalledSlot {c : HeldCommand} {cs : List HeldCommand} {l : JobCommand} (queues : QueuesSound s)
    (stalled : (s.queue q).state = .stalledSlot) (head : (s.queue q).commands = c :: cs) (job : c.parts.job = some l) :
    1 ≤ l.count ∧ l.count ≤ 8192 := by
  have legal := (queues q).2.1 stalled
  rw [headIs_cons head, job] at legal
  simpa using legal

theorem slotSound_freeSlot (slot : s.slot i = some j) (queues : QueuesSound s) : SlotSound ((s.freeSlot i).slot i) := by
  obtain ⟨v, vacated, e⟩ := freeSlot_vacates slot
  rw [e]
  rcases grantSlot_entered v i with ⟨-, e⟩ | ⟨r, c, cs, l, stalled, head, job, entered⟩
  · rw [e, vacated.slots, if_pos rfl]
    exact fun _ h => nomatch h
  · rw [entered.slots, if_pos rfl]
    intro k hk
    cases hk
    exact jobSound_enter r c.seq (bound_of_stalledSlot (queuesSound_vacated vacated queues) stalled head job)

theorem jobsSound_freeSlot (slot : s.slot i = some j) (queues : QueuesSound s)
    (others : ∀ k, k ≠ i → SlotSound (s.slot k)) : JobsSound (s.freeSlot i) := by
  intro k
  by_cases e : k = i
  · subst e
    exact slotSound_freeSlot slot queues
  · rw [slot_freeSlot_ne s (Ne.symm e)]
    exact others k e

/-- The records posted are those that a free finds. -/
theorem records_freeSlot (s : State) (i : SlotId) : (s.freeSlot i).completion.fifo = s.completion.fifo := by
  have grant : ∀ u : State, (u.grantSlot i).completion = u.completion := fun u => by
    rcases grantSlot_entered u i with ⟨-, e⟩ | ⟨_, _, _, _, -, -, -, entered⟩
    · rw [e]
    · exact entered.completion
  unfold State.freeSlot
  split
  · rfl
  · dsimp only
    rw [grant]
    split
    · rfl
    · exact (released_releaseTag (s.setSlot i none) _ _).posters.fifo

theorem recordsSound_of_same (fifo : t.completion.fifo = s.completion.fifo) (view : t.completion.view = s.completion.view)
    (records : RecordsSound s) : RecordsSound t := by
  rw [RecordsSound, fifo, view]
  exact records

/-- The finish of a job that may be over leaves every job record sound, and every completion record. -/
theorem finish_sound (queues : QueuesSound v) (others : ∀ k, k ≠ i → SlotSound (v.slot k))
    (fit : ∀ j, v.slot i = some j → JobFit j) :
    JobsSound (v.finishIfOver i) ∧ (RecordsSound v → RecordsSound (v.finishIfOver i)) := by
  have other : ∀ x k, k ≠ i → SlotSound ((v.setSlot i x).slot k) := fun x k hk => by
    rw [slot_setSlot_ne v i k _ (Ne.symm hk)]
    exact others k hk
  have view := (outside_finishIfOver v i).view
  rcases finishIfOver_cases v i with ⟨e, more⟩ | ⟨j, slot, isOver, ⟨-, -, e⟩ | ⟨-, e⟩ | e⟩
  · rw [e]
    refine ⟨fun k => ?_, id⟩
    by_cases hk : k = i
    · exact (slotSound_iff _).2 ⟨hk ▸ fit, hk ▸ more⟩
    · exact others k hk
  · rw [e]
    refine ⟨fun k => ?_, id⟩
    by_cases hk : k = i
    · subst hk
      intro l hl
      cases Option.some.inj ((slot_setSlot_self v k _).symm.trans hl)
      exact jobSound_posting (fit j slot) isOver
    · exact other _ k hk
  · rw [e] at view ⊢
    refine ⟨jobsSound_freeSlot (slot_setSlot_self v i _) queues (other _), fun records => ?_⟩
    refine ⟨fun r hr => ?_, fun r hr => records.2 r (view.symm.trans hr)⟩
    rw [records_freeSlot] at hr
    rcases List.mem_append.1 hr with hr | hr
    · exact records.1 r hr
    · cases List.mem_singleton.1 hr
      exact recordSound_settled (fit j slot) isOver
  · rw [e] at view ⊢
    exact ⟨jobsSound_freeSlot (slot_setSlot_self v i _) queues (other _),
      recordsSound_of_same (records_freeSlot _ i) view⟩

/-! ### The turns -/

theorem turn_sound (h : Turn s i j n g t) (slot : s.slot i = some j) (queues : QueuesSound s) (jobs : JobsSound s) :
    JobsSound t ∧ (RecordsSound s → RecordsSound t) := by
  obtain ⟨v, m, turned, handled, landed⟩ := turn_turned h (jobs i j slot)
  have others : ∀ k, k ≠ i → SlotSound (v.slot k) := fun k hk => slotSound_granted (turned.others k hk) (jobs k)
  have fit : ∀ l, v.slot i = some l → JobFit l := granted_fit turned.mine fun l hl => Option.some.inj hl ▸ handled.fit
  have kept := recordsSound_of_same turned.fifo turned.view
  rcases landed with ⟨rfl, more⟩ | rfl
  · refine ⟨fun k => ?_, kept⟩
    by_cases hk : k = i
    · exact (slotSound_iff _).2 ⟨hk ▸ fit, hk ▸ granted_over turned.mine fun l hl => Option.some.inj hl ▸ more⟩
    · exact others k hk
  · obtain ⟨jobs, records⟩ := finish_sound (fun q => (turned.queues q).sound (queues q)) others fit
    exact ⟨jobs, records ∘ kept⟩

theorem cancel_sound (q : QueueId) (i : SlotId) (queues : QueuesSound s) (jobs : JobsSound s) :
    JobsSound (State.cancelJob q s i) ∧ (RecordsSound s → RecordsSound (State.cancelJob q s i)) := by
  rcases cancelJob_cases s q i with ⟨-, e⟩ | ⟨j, slot, -, running, e⟩
  · rw [e]
    exact ⟨jobs, id⟩
  · rw [e]
    exact turn_sound (turn_cancel (n := 0) running) slot queues jobs

theorem cancels_sound (q : QueueId) (l : List SlotId) (queues : QueuesSound s) (jobs : JobsSound s) :
    JobsSound (l.foldl (State.cancelJob q) s) ∧ (RecordsSound s → RecordsSound (l.foldl (State.cancelJob q) s)) := by
  induction l generalizing s with
  | nil => exact ⟨jobs, id⟩
  | cons i l ih =>
    obtain ⟨once, records⟩ := cancel_sound q i queues jobs
    obtain ⟨all, rest⟩ := ih (queuesSound_course (course_cancelJob s q i) queues) once
    exact ⟨all, rest ∘ records⟩

end Sys2Proof.Laws

/-!
PROOFS. The issue of a burst (R66, R67), and the settlement of O54.
-/

namespace Sys2Proof.Laws

open Sys2Proof.Machine Sys2Proof.Safety

variable {s t u v : State} {q : QueueId} {i k : SlotId} {j l m : Job} {b c : Burst} {role : RequestRole} {a n : Nat}
  {stores : Bool}

/-! ### The addresses of a burst -/

/-- At most one place of the list is external. -/
def AtMostOneExt (l : List Place) : Prop := l.countP Place.isExt ≤ 1

theorem atMostOneExt_single (p : Place) : AtMostOneExt [p] := List.countP_le_length

theorem atMostOneExt_banks (banks : List BankId) (a : BitVec 22) (n : Nat) : AtMostOneExt (manyBankPlaces banks a n) := by
  unfold AtMostOneExt manyBankPlaces
  rw [List.countP_map]
  exact (List.countP_eq_zero.2 fun _ _ => by simp [Place.isExt]).trans_le (Nat.zero_le 1)

theorem resolveSide_single {x : XSize} {table : Vector SegEntry 512} {side : Side} {cursor : Option Cursor} {l : List Place}
    (h : (resolveSide x table n side cursor).1.map (fun p => [p]) = .ok l) : ∃ p, l = [p] := by
  cases e : (resolveSide x table n side cursor).1 with
  | error f => rw [e] at h; cases h
  | ok p => rw [e] at h; cases h; exact ⟨p, rfl⟩

theorem resolveSources_ext {x : XSize} {table : Vector SegEntry 512} {work : Work} {cursor : Option Cursor} {l : List Place}
    (h : (resolveSources x table n work cursor).1 = .ok l) : AtMostOneExt l := by
  cases work with
  | copy | accum | spread =>
    obtain ⟨p, rfl⟩ := resolveSide_single h
    exact atMostOneExt_single p
  | merge => cases h; exact atMostOneExt_banks _ _ _
  | tabload => cases h; exact atMostOneExt_single _
  | fill => cases h; exact Nat.zero_le 1

theorem resolveDests_ext {x : XSize} {table : Vector SegEntry 512} {work : Work} {cursor : Option Cursor} {l : List Place}
    (h : (resolveDests x table n work cursor).1 = .ok l) :
    AtMostOneExt l ∧ (work.readsOldDestination = true → ∃ p, l = [p]) := by
  cases work with
  | copy | accum | merge | fill =>
    obtain ⟨p, rfl⟩ := resolveSide_single h
    exact ⟨atMostOneExt_single p, fun _ => ⟨p, rfl⟩⟩
  | spread => cases h; exact ⟨atMostOneExt_banks _ _ _, nofun⟩
  | tabload => cases h; exact ⟨Nat.zero_le 1, nofun⟩

/-! ### What an issue comes to -/

/-- A burst context as it is issued: with the next index, in a state that its requests allow, and nothing sent. -/
structure Issued (j : Job) (dst : List Place) (c : Burst) : Prop where
  index : c.index = j.next
  dests : c.dests = dst
  good : c.failed = false
  sound : BurstSound c
  unsent : ∀ role a, ¬hasSent role a c
  inside : ¬Strayed c

/-- What becomes of the next burst of a job: it begins at once; or, in a read-modify-write job, it is granted an entry, or
it waits for one. -/
inductive Placed (s : State) (i : SlotId) (j : Job) : State → Prop
  | free (cur : Option Cursor) (c : Burst) (dst : List Place) (plain : j.command.work.readsOldDestination = false)
      (issued : Issued j dst c) (begun : c.state ≠ .lockWait) :
      Placed s i j (s.setSlot i (some (Job.addBurst { j with cursor := cur } c)))
  | granted (cur : Option Cursor) (c : Burst) (key : Place) (locks : j.command.work.readsOldDestination = true)
      (issued : Issued j [key] c) (begun : c.state ≠ .lockWait) (grants : s.interlock.grants key = true) :
      Placed s i j ((s.setSlot i (some (Job.addBurst { j with cursor := cur } c))).setInterlock
        { s.interlock with table := s.interlock.table ++ [{ key := key, slot := i, burst := j.next }] })
  | waits (cur : Option Cursor) (c : Burst) (key : Place) (locks : j.command.work.readsOldDestination = true)
      (issued : Issued j [key] c) (waiting : c.state = .lockWait) (blocked : s.interlock.grants key = false) :
      Placed s i j ((s.setSlot i (some (Job.addBurst { j with cursor := cur } c))).setInterlock
        { s.interlock with waiters := s.interlock.waiters ++ [{ key := key, slot := i, burst := j.next }] })

theorem burstSound_issue {src dst : List Place} (hs : AtMostOneExt src) (hd : AtMostOneExt dst) :
    BurstSound (Burst.issue n src dst) :=
  ⟨nofun, fun _ => rfl, nofun, hs, hd, fun _ => Nat.zero_le 1, Nat.zero_le 1⟩

theorem issued_reading {src dst : List Place} (hs : AtMostOneExt src) (hd : AtMostOneExt dst) (old : Bool) :
    Issued j dst ((Burst.issue j.next src dst).startReading old) := by
  have sound := burstSound_startReading (burstSound_issue (n := j.next) hs hd) nofun old
  refine ⟨rfl, rfl, rfl, sound, fun role a => not_hasSent sound rfl (placedReads_unsent _ old), ?_⟩
  rintro (⟨r, hr, sent, -⟩ | ⟨w, hw, -⟩)
  · exact absurd sent (List.any_eq_false.1 (placedReads_unsent _ old) r hr)
  · cases hw

theorem issued_writing {src dst : List Place} (hs : AtMostOneExt src) (hd : AtMostOneExt dst) (d : BurstData) :
    Issued j dst ((Burst.issue j.next src dst).startWriting d) := by
  have sound := burstSound_startWriting (burstSound_issue (n := j.next) hs hd) rfl rfl d
  have unsent : ∀ x ∈ ((Burst.issue j.next src dst).startWriting d).writes, x.stage ≠ .sent := fun x hx sent => by
    obtain ⟨p, -, rfl⟩ := List.mem_map.1 hx
    cases sent
  refine ⟨rfl, rfl, rfl, sound, fun role a sent => ?_, ?_⟩
  · rcases hasSent_state sound sent with ⟨-, reading, -⟩ | ⟨rfl, -⟩
    · cases reading
    · obtain ⟨x, hx, sent, -⟩ := hasSent_write.1 sent
      exact unsent x hx sent
  · rintro (⟨r, hr, -⟩ | ⟨w, hw, sent, -⟩)
    · cases hr
    · exact unsent w hw sent

theorem issued_waiting {src dst : List Place} (hs : AtMostOneExt src) (hd : AtMostOneExt dst) :
    Issued j dst { Burst.issue j.next src dst with state := .lockWait } := by
  have sound : BurstSound { Burst.issue j.next src dst with state := .lockWait } :=
    ⟨fun _ => rfl, fun _ => rfl, nofun, hs, hd, fun _ => Nat.zero_le 1, Nat.zero_le 1⟩
  refine ⟨rfl, rfl, rfl, sound, fun role a sent => ?_, ?_⟩
  · rcases hasSent_state sound sent with ⟨-, reading, -⟩ | ⟨-, writing⟩
    · cases reading
    · cases writing
  · rintro (⟨r, hr, -⟩ | ⟨w, hw, -⟩)
    · cases hr
    · cases hw

theorem placed_placeBurst (s : State) (i : SlotId) (cur : Option Cursor) {src dst : List Place} (hs : AtMostOneExt src)
    (hd : AtMostOneExt dst) (single : j.command.work.readsOldDestination = true → ∃ key, dst = [key]) :
    Placed s i j (s.placeBurst i { j with cursor := cur } src dst) := by
  cases locks : j.command.work.readsOldDestination with
  | true =>
    obtain ⟨key, rfl⟩ := single locks
    rw [placeBurst_lock (j := { j with cursor := cur }) locks]
    unfold State.requestLock
    dsimp only
    split
    · exact .granted cur _ key locks (issued_reading hs hd true) nofun ‹_›
    · exact .waits cur _ key locks (issued_waiting hs hd) rfl (Bool.eq_false_iff.2 ‹_›)
  | false =>
    by_cases fill : ∃ pattern d, j.command.work = .fill pattern d
    · obtain ⟨pattern, d, work⟩ := fill
      rw [placeBurst_fill (j := { j with cursor := cur }) work]
      exact .free cur _ dst locks (issued_writing hs hd _) nofun
    · rw [placeBurst_plain (j := { j with cursor := cur }) (fun pattern d e => fill ⟨pattern, d, e⟩) locks]
      exact .free cur _ dst locks (issued_reading hs hd false) nofun

/-- An issue is a turn that fails the job, or places its next burst. -/
theorem issueBurst_cases (s : State) (i : SlotId) (may : j.mayIssue = true) :
    Turn s i j 0 (fun _ _ => False) (s.issueBurst i j) ∨ Placed s i j (s.issueBurst i j) := by
  cases resolved : resolveBurst s.ext.xsize s.segments j.next j.command.work j.cursor with
  | mk r cur =>
    cases r with
    | error f =>
      have e : s.issueBurst i j = s.firstFault i { j with cursor := cur } f := by
        simp only [State.issueBurst, resolved]
      exact e ▸ .inl (turn_issueFails may cur f)
    | ok places =>
      obtain ⟨src, dst⟩ := places
      rw [issueBurst_resolved resolved]
      simp only [resolveBurst] at resolved
      split at resolved
      · cases resolved
      · rename_i sources
        split at resolved
        · cases resolved
        · rename_i dests
          cases resolved
          obtain ⟨hd, single⟩ := resolveDests_ext dests
          exact .inr (placed_placeBurst s i _ (resolveSources_ext sources) hd single)

/-! ### Job records -/

theorem jobSound_addBurst {dst : List Place} (sound : JobSound j) (may : j.mayIssue = true) (cur : Option Cursor)
    (issued : Issued j dst c) : JobSound (Job.addBurst { j with cursor := cur } c) := by
  obtain ⟨active, more, room⟩ := (mayIssue_iff j).1 may
  obtain ⟨⟨limit, next, count, rising, bursts, done, running, fault, place, saturation⟩, -⟩ := sound
  obtain ⟨status, total, good⟩ := running (by simp [Job.isRunning, active])
  have length : (j.bursts ++ [c]).length = j.bursts.length + 1 := by simp
  simp only [Job.inFlight] at room done total
  have states : ∀ st, (Job.addBurst { j with cursor := cur } c).state = st →
      st = .draining ∧ j.next + 1 = j.command.count ∨ st = .active ∧ j.next + 1 ≠ j.command.count := by
    rintro st rfl
    unfold Job.addBurst
    split
    · exact .inl ⟨rfl, ‹_›⟩
    · exact .inr ⟨active, ‹_›⟩
  have flying : (Job.addBurst { j with cursor := cur } c).isOver = false :=
    Bool.eq_false_iff.2 fun h => absurd ((isOver_iff _).1 h).1 (by simp [Job.addBurst])
  refine (jobSound_iff _).2 ⟨⟨⟨length.trans_le room, more, count, ?_, fun b hb => ?_, ?_, fun _ => ⟨status, ?_, fun b hb => ?_⟩,
    fun hf => ?_, place, saturation⟩, fun e => ?_, fun e => ?_, fun e => ?_, fun e => ?_⟩, flying⟩
  · refine List.pairwise_append.2 ⟨rising, List.pairwise_singleton _ _, fun b hb d hd => ?_⟩
    rw [List.mem_singleton.1 hd, issued.index]
    exact (bursts b hb).1
  · show b.index < j.next + 1 ∧ BurstSound b
    rcases List.mem_append.1 hb with hb | hb
    · exact ⟨Nat.lt_succ_of_lt (bursts b hb).1, (bursts b hb).2⟩
    · rw [List.mem_singleton.1 hb, issued.index]
      exact ⟨Nat.lt_succ_self _, issued.sound⟩
  · show j.done + (j.bursts ++ [c]).length ≤ j.next + 1
    omega
  · show j.done + (j.bursts ++ [c]).length = j.next + 1
    omega
  · rcases List.mem_append.1 hb with hb | hb
    · exact good b hb
    · rw [List.mem_singleton.1 hb]
      exact issued.good
  · have : (j.status.any isFault) = true := hf
    rw [status] at this
    cases this
  · have : j.next + 1 < j.command.count := by
      rcases states _ e with ⟨e, -⟩ | ⟨-, ne⟩
      · cases e
      · omega
    exact this
  · rcases states _ e with ⟨-, last⟩ | ⟨e, -⟩
    · exact last
    · cases e
  · rcases states _ e with ⟨e, -⟩ | ⟨e, -⟩ <;> cases e
  · rcases states _ e with ⟨e, -⟩ | ⟨e, -⟩ <;> cases e

theorem slotsSound_setSlot (jobs : JobsSound s) (sound : JobSound m) : JobsSound (s.setSlot i (some m)) := by
  intro k l hl
  rw [slot_setSlot] at hl
  split at hl
  · cases hl
    exact sound
  · exact jobs k l hl

/-- Every job record and every completion record is sound. -/
def Recorded (s : State) : Prop := JobsSound s ∧ RecordsSound s

theorem recorded_same (slots : t.slots = s.slots) (fifo : t.completion.fifo = s.completion.fifo)
    (view : t.completion.view = s.completion.view) (hs : Recorded s) : Recorded t := by
  obtain ⟨jobs, records⟩ := hs
  refine ⟨fun k => ?_, recordsSound_of_same fifo view records⟩
  rw [State.slot, slots]
  exact jobs k

theorem recorded_turn {g : RequestRole → Nat → Prop} (h : Turn s i j n g t) (slot : s.slot i = some j)
    (queues : QueuesSound s) (hs : Recorded s) : Recorded t :=
  (turn_sound h slot queues hs.1).imp id fun records => records hs.2

theorem recorded_placed (h : Placed s i j t) (slot : s.slot i = some j) (may : j.mayIssue = true) (hs : Recorded s) :
    Recorded t := by
  obtain ⟨jobs, records⟩ := hs
  have sound := jobs i j slot
  cases h with
  | free cur c dst plain issued => exact ⟨slotsSound_setSlot jobs (jobSound_addBurst sound may cur issued), records⟩
  | granted cur c key locks issued => exact ⟨slotsSound_setSlot jobs (jobSound_addBurst sound may cur issued), records⟩
  | waits cur c key locks issued => exact ⟨slotsSound_setSlot jobs (jobSound_addBurst sound may cur issued), records⟩

theorem recorded_issue (slot : s.slot i = some j) (may : j.mayIssue = true) (queues : QueuesSound s) (hs : Recorded s) :
    Recorded (s.issueBurst i j) := by
  rcases issueBurst_cases s i may with turn | placed
  · exact recorded_turn turn slot queues hs
  · exact recorded_placed placed slot may hs

/-- What OFFER makes of the job whose request it offers: the request is sent. -/
theorem offerRequest_cases (s : State) (d : ReqId) (i : SlotId) (j : Job) (b : Burst) :
    s.offerRequest d i j b = s ∨
      (∃ r ∈ b.reads, r.waitsAtExt = true ∧ s.offerRequest d i j b =
        (s.setSlot i (some (j.putBurst (b.setRead r .sent)))).giveId d i b.index (.read r.role) r.place.extAddress) ∨
      ∃ w ∈ b.writes, w.waitsAtExt = true ∧ s.offerRequest d i j b =
        (s.setSlot i (some (j.putBurst (b.setWrite w .sent)))).giveId d i b.index .write w.place.extAddress := by
  unfold State.offerRequest
  split
  · rename_i r found
    exact .inr (.inl ⟨r, List.mem_of_find?_eq_some found, List.find?_some found, rfl⟩)
  · split
    · rename_i w found
      exact .inr (.inr ⟨w, List.mem_of_find?_eq_some found, List.find?_some found, rfl⟩)
    · exact .inl rfl

theorem jobSound_sendRead {r : ReadRequest} (sound : JobSound j) (hb : b ∈ j.bursts) (hr : r ∈ b.reads)
    (waits : r.stage = .waiting) : JobSound (j.putBurst (b.setRead r .sent)) := by
  have reading : b.state = .reading :=
    reading_of_open (sound.burst hb).2 hr (by simp [hasReturned, ReadRequest.words?, waits])
  exact jobSound_putBurst sound hb rfl (burstSound_setRead (sound.burst hb).2 reading _)
    (fun running => sound.good (b := b) running hb)
    (.inr id)

theorem jobSound_sendWrite {w : WriteRequest} (sound : JobSound j) (hb : b ∈ j.bursts) (hw : w ∈ b.writes) :
    JobSound (j.putBurst (b.setWrite w .sent)) :=
  jobSound_putBurst sound hb rfl (burstSound_setWrite (sound.burst hb).2 (writing_of_write (sound.burst hb).2 hw) _)
    (fun running => sound.good (b := b) running hb) (.inr id)

theorem recorded_offer {d : ReqId} (choice : s.extChoice = some (i, j, b)) (hs : Recorded s) :
    Recorded (s.offerRequest d i j b) := by
  obtain ⟨jobs, records⟩ := hs
  obtain ⟨slot, hb, -⟩ := arbitrate_sound choice
  have sound := jobs i j slot
  rcases offerRequest_cases s d i j b with e | ⟨r, hr, waits, e⟩ | ⟨w, hw, -, e⟩
  · rw [e]
    exact ⟨jobs, records⟩
  · rw [e]
    have waiting : r.stage = .waiting := by
      simp only [ReadRequest.waitsAtExt, Bool.and_eq_true, ReadRequest.isWaiting, decide_eq_true_eq] at waits
      exact waits.1
    exact ⟨slotsSound_setSlot jobs (jobSound_sendRead sound hb hr waiting), records⟩
  · rw [e]
    exact ⟨slotsSound_setSlot jobs (jobSound_sendWrite sound hb hw), records⟩

/-! ### The queues' takes and the pop -/

theorem jobsSound_entered {r : BitVec 16} {x : JobCommand} (h : Entered s t i q r x) (bound : 1 ≤ x.count ∧ x.count ≤ 8192)
    (jobs : JobsSound s) : JobsSound t := by
  intro k l hl
  rw [h.slots] at hl
  split at hl
  · cases hl
    exact jobSound_enter q r bound
  · exact jobs k l hl

theorem evaluateFence_slots (s : State) (q : QueueId) (c : HeldCommand) :
    (s.evaluateFence q c).slots = s.slots ∧ (s.evaluateFence q c).interlock = s.interlock ∧
      (s.evaluateFence q c).completion.fifo = s.completion.fifo := by
  unfold State.evaluateFence
  split_ifs <;> exact ⟨rfl, rfl, rfl⟩

theorem recorded_take {c : HeldCommand} (hs : Recorded s) : Recorded (s.takeCommand q c) := by
  obtain ⟨jobs, records⟩ := hs
  have view := (outside_takeCommand s q c).view
  rcases takeCommand_cases s q c with
    ⟨r, e⟩ | ⟨l, decoded, ⟨i, -, e⟩ | ⟨-, e⟩⟩ | ⟨-, e⟩ | ⟨-, ⟨-, e⟩ | ⟨-, e⟩⟩ <;> rw [e] at view ⊢
  · exact ⟨jobs, records⟩
  · have entered := entered_enterSlot s i q c.seq l
    exact ⟨jobsSound_entered entered (decode_job decoded).2 jobs,
      recordsSound_of_same (congrArg Completion.fifo entered.completion) view records⟩
  · exact ⟨jobs, records⟩
  · obtain ⟨slots, -, fifo⟩ := evaluateFence_slots s q c
    exact recorded_same slots fifo view ⟨jobs, records⟩
  · refine ⟨jobs, fun r hr => ?_, records.2⟩
    rcases List.mem_append.1 hr with hr | hr
    · exact records.1 r hr
    · cases List.mem_singleton.1 hr
      trivial
  · exact ⟨jobs, records⟩

theorem recordSound_record (bounded : JobBounded j) : RecordSound j.record := by
  obtain ⟨-, next, count, -, -, done, -, -, place, saturation⟩ := bounded
  refine ⟨place.trans ?_, by omega, saturation⟩
  cases j.status with
  | none => exact Iff.rfl
  | some st => exact Iff.rfl

/-- What CFPOP comes to: the front record, if any, goes to the view; and then nothing more, or the NOTE of a queue that
waits is posted, or the record of a job that waits, whose slot is freed. -/
theorem popRecord_cases (s : State) :
    (∃ x : Completion, s.popRecord = s.setCompletion x ∧ (∀ r ∈ x.fifo, r ∈ s.completion.fifo) ∧
      ∀ r, x.view = some r → r ∈ s.completion.fifo) ∨
    ∃ r rest p ws, s.completion.fifo = r :: rest ∧ s.completion.waiters = p :: ws ∧
      ((∃ q c cs, p = .queue q ∧ (s.queue q).commands = c :: cs ∧ s.popRecord =
          ((s.setCompletion { fifo := rest ++ [.note q c.seq c.parts.mark], waiters := ws, view := some r }).modQueue q
            fun x => x.pop.withState .running).setInterrupts
          { s.interrupts with note := s.interrupts.note || c.parts.flag }) ∨
        ∃ i j, p = .slot i ∧ s.slot i = some j ∧ s.popRecord =
          (s.setCompletion { fifo := rest ++ [j.record], waiters := ws, view := some r }).freeSlot i) := by
  cases fifo : s.completion.fifo with
  | nil =>
    refine .inl ⟨_, popRecord_empty fifo, fun r hr => fifo ▸ hr, nofun⟩
  | cons r rest =>
    have front : ∀ o, some r = some o → o ∈ r :: rest := fun o e => Option.some.inj e ▸ List.mem_cons_self
    cases waiters : s.completion.waiters with
    | nil => exact .inl ⟨_, popRecord_alone fifo waiters, fun o ho => List.mem_cons_of_mem _ ho, front⟩
    | cons p ws =>
      have alone : (∀ q, p = .queue q → (s.queue q).commands = []) → (∀ i, p = .slot i → s.slot i = none) →
          s.popRecord = s.setCompletion { fifo := rest, waiters := ws, view := some r } := fun hq hi => by
        cases p with
        | queue q =>
          simp only [State.popRecord, fifo, State.giveRoom, setCompletion_completion, waiters, State.postNow,
            queue_setCompletion, hq q rfl]
          rfl
        | slot i =>
          simp only [State.popRecord, fifo, State.giveRoom, setCompletion_completion, waiters, State.postNow,
            slot_setCompletion, hi i rfl]
          rfl
      cases p with
      | queue q =>
        cases head : (s.queue q).commands with
        | nil =>
          exact .inl ⟨_, alone (fun p e => by cases e; exact head) nofun, fun o ho => List.mem_cons_of_mem _ ho, front⟩
        | cons c cs =>
          exact .inr ⟨r, rest, _, ws, rfl, rfl, .inl ⟨q, c, cs, rfl, head, popRecord_note fifo waiters head⟩⟩
      | slot i =>
        cases slot : s.slot i with
        | none =>
          exact .inl ⟨_, alone nofun (fun p e => by cases e; exact slot), fun o ho => List.mem_cons_of_mem _ ho, front⟩
        | some j =>
          exact .inr ⟨r, rest, _, ws, rfl, rfl, .inr ⟨i, j, rfl, slot, popRecord_job fifo waiters slot⟩⟩

theorem recorded_pop (queues : QueuesSound s) (hs : Recorded s) : Recorded s.popRecord := by
  obtain ⟨jobs, records⟩ := hs
  rcases popRecord_cases s with ⟨x, e, fifo, view⟩ | ⟨r, rest, p, ws, fifo, -, ⟨q, c, cs, -, -, e⟩ | ⟨i, j, -, slot, e⟩⟩
  · rw [e]
    exact ⟨jobs, fun r hr => records.1 r (fifo r hr), fun r hr => records.1 r (view r hr)⟩
  all_goals
    have appended : ∀ {x : Record}, RecordSound x → (∀ o ∈ rest ++ [x], RecordSound o) ∧
        ∀ o, some r = some o → RecordSound o := fun hx => by
      refine ⟨fun o ho => ?_, fun o ho => Option.some.inj ho ▸ records.1 r (fifo ▸ List.mem_cons_self)⟩
      rcases List.mem_append.1 ho with ho | ho
      · exact records.1 o (fifo ▸ List.mem_cons_of_mem _ ho)
      · exact List.mem_singleton.1 ho ▸ hx
    rw [e]
  · exact ⟨jobs, appended trivial⟩
  · refine ⟨jobsSound_freeSlot slot queues fun k _ => jobs k, ?_⟩
    exact recordsSound_of_same (records_freeSlot _ i) (outside_freeSlot _ i).view (appended (recordSound_record (jobs i j slot).1))

theorem recorded_abort (queues : QueuesSound s) (hs : Recorded s) (q : QueueId) : Recorded (s.abortQueue q) := by
  by_cases aborting : (s.queue q).state = .aborting
  · rw [abortQueue_aborting aborting]
    exact hs
  · rw [abortQueue_eq aborting]
    obtain ⟨jobs, records⟩ := recorded_same (t := discarded s q) rfl rfl rfl hs
    have cancelled := cancels_sound q (List.finRange 8) (queuesSound_shift (shift_discarded s q) queues) jobs
    generalize (List.finRange 8).foldl (State.cancelJob q) (discarded s q) = v at cancelled ⊢
    exact recorded_same rfl rfl rfl ⟨cancelled.1, cancelled.2 records⟩

theorem recorded_reset (slots : ∀ i, t.slot i = none) (completion : t.completion = State.reset.completion) : Recorded t :=
  ⟨fun i j slot => (nomatch (slots i).symm.trans slot), by rw [RecordsSound, completion]; exact ⟨nofun, nofun⟩⟩

theorem recorded_happening (queues : QueuesSound s) (h : Happening s stores t) (hs : Recorded s) : Recorded t := by
  have same : ∀ {t : State}, t.slots = s.slots → t.completion = s.completion → Recorded t := fun slots completion =>
    recorded_same slots (congrArg Completion.fifo completion) (congrArg Completion.view completion) hs
  have turn : ∀ {u t : State} {i j n g}, Turn u i j n g t → u.slots = s.slots → u.completion = s.completion →
      u.queues = s.queues → s.slot i = some j → Recorded t := fun turn slots completion hq slot => by
    refine recorded_turn turn (by rw [State.slot, slots]; exact slot) (fun q => ?_) (same slots completion)
    rw [State.queue, hq]
    exact queues q
  cases h with
  | stop q =>
    unfold State.stopQueue
    split <;> exact recorded_same rfl rfl rfl hs
  | abort q => exact recorded_abort queues hs q
  | take q c => exact recorded_take hs
  | issue i j slot may => exact recorded_issue slot may queues hs
  | bankRead p i j b r c k slot burst read waiting =>
    have open_ : hasReturned r = false := by simp [hasReturned, ReadRequest.words?, waiting]
    obtain ⟨x, h⟩ := turn_readReturns (s := s.setBankPointer p i) slot burst read open_ (s.memory.burstOutcome c k)
    exact turn h rfl rfl rfl slot
  | bankWrite p i j b w c k slot burst write =>
    exact turn (u := { s.setBankPointer p i with memory := s.memory.writeBurst c k w.words }) (turn_writeDone burst write)
      rfl rfl rfl slot
  | offer d i j b none free choice => exact recorded_offer choice hs
  | answer d o x y =>
    rcases turn_deliver (s.setReqId d x) o y with e | ⟨j, b, z, slot, -, -, h⟩
    · rw [e]
      exact hs
    · exact turn h rfl rfl rfl slot
  | clear g v =>
    unfold State.writeTag
    split <;> exact same rfl rfl
  | icplth v =>
    unfold State.writeIcplth
    split <;> exact same rfl rfl
  | pop => exact recorded_pop queues hs
  | softReset => exact recorded_reset slot_reset rfl
  | pinReset => exact recorded_reset slot_reset rfl
  | _ => exact same rfl rfl

/-- Settles O54. -/
theorem jobRecordsKept : Obligations.JobRecordsKept := by
  refine ⟨fun s t queues jobs records h => ?_, fun s t => kept_by_step (fun _ _ => id) fun hs h =>
    effect_everyJob saturationExplained_property (happening_effect h) hs, fun s t => kept_by_step (fun _ _ => id) fun hs h =>
    effect_everyJob commandsCarried_property (happening_effect h) hs⟩
  obtain ⟨rest, stores, happening⟩ := happening_step h
  exact recorded_happening (s := s.withPending rest) queues happening ⟨jobs, records⟩

end Sys2Proof.Laws

/-!
PROOFS. The request IDs (chapter 08): each BUSY ID is owned by exactly one burst in flight (R133), one offer stands at most
(R131), and a timer runs only for an accepted request (R137, R139).
-/

namespace Sys2Proof.Laws

open Sys2Proof.Machine Sys2Proof.Safety

variable {s t u v : State} {q : QueueId} {i k : SlotId} {j l m : Job} {b c : Burst} {role : RequestRole} {a n : Nat}
  {d e : ReqId} {stores : Bool} {x y : Option Job}

/-! ### The IDs: offers and timers -/

theorem isOffered_iff (x : IdState) : x.isOffered = true ↔ ∃ o, x = .busy o ∧ o.accepted = false := by
  cases x <;> simp [IdState.isOffered]

theorem oneOffer_of_fewer (h : ∀ e, t.reqId e = s.reqId e ∨ (t.reqId e).isOffered = false)
    (hs : OneOffer s ∧ TimersAccepted s) : OneOffer t ∧ TimersAccepted t := by
  obtain ⟨one, timers⟩ := hs
  have offered : ∀ e, (t.reqId e).isOffered = true → (s.reqId e).isOffered = true := fun e he => by
    rcases h e with same | none
    · exact same ▸ he
    · exact nomatch none.symm.trans he
  refine ⟨fun d e hd he => one d e (offered d hd) (offered e he), fun d o busy timer => ?_⟩
  rcases h d with same | none
  · exact timers d o (same.symm.trans busy) timer
  · by_contra waiting
    exact Bool.eq_false_iff.1 none ((isOffered_iff _).2 ⟨o, busy, Bool.eq_false_iff.2 waiting⟩)

theorem reqId_giveId (s : State) (d e : ReqId) (i : SlotId) (n : Nat) (role : RequestRole) (a : Nat) :
    (s.giveId d i n role a).reqId e =
      if d = e then .busy { slot := i, burst := n, role := role, address := a, accepted := false, timer := none }
      else s.reqId e :=
  reqId_setReqId s d e _

theorem oneOffer_given {o : BusyId} (idle : ∀ e, (s.reqId e).isOffered = false) (untimed : o.timer = none)
    (ids : ∀ e, t.reqId e = if d = e then .busy o else s.reqId e) (hs : TimersAccepted s) :
    OneOffer t ∧ TimersAccepted t := by
  have only : ∀ e, (t.reqId e).isOffered = true → d = e := fun e he => by
    by_contra ne
    rw [ids, if_neg ne, idle] at he
    cases he
  refine ⟨fun e f he hf => (only e he).symm.trans (only f hf), fun e p busy timer => ?_⟩
  rw [ids] at busy
  split at busy
  · cases busy
    rw [untimed] at timer
    cases timer
  · exact hs e p busy timer

theorem reqId_of_ext (h : t.ext = s.ext) (e : ReqId) : t.reqId e = s.reqId e := by
  rw [State.reqId, h]
  rfl

theorem ext_popRecord (s : State) : s.popRecord.ext = s.ext := by
  rcases popRecord_cases s with ⟨x, e, -⟩ | ⟨r, rest, p, ws, -, -, ⟨q, c, cs, -, -, e⟩ | ⟨i, j, -, -, e⟩⟩
  · rw [e]
    rfl
  · rw [e]
    rfl
  · rw [e]
    exact (outside_freeSlot _ i).ext

theorem reqId_softReset (s : State) (e : ReqId) : s.softReset.reqId e = (s.reqId e).softReset := by
  simp [State.softReset, State.reqId, mapVector]

theorem isBusy_softReset (x : IdState) : x.softReset.isBusy = false := by
  cases x with
  | busy o =>
    unfold IdState.softReset
    dsimp only
    split <;> rfl
  | free => rfl
  | quarantined => rfl

theorem reqId_pinReset (s : State) (e : ReqId) : s.pinReset.reqId e = .free := by
  simp [State.pinReset, State.reqId]

theorem not_offered_of_not_busy {x : IdState} (h : x.isBusy = false) : x.isOffered = false := by
  cases x with
  | busy o => cases h
  | free => rfl
  | quarantined => rfl

/-- What a happening does to the IDs, but for OFFER. -/
theorem happening_ids (h : Happening s stores t) : (∀ e, t.reqId e = s.reqId e ∨ (t.reqId e).isOffered = false) ∨
    ∃ d o, (∀ e, (s.reqId e).isOffered = false) ∧ o.timer = none ∧ ∀ e, t.reqId e = if d = e then .busy o else s.reqId e := by
  have same : t.ext = s.ext → (∀ e, t.reqId e = s.reqId e ∨ (t.reqId e).isOffered = false) ∨
      ∃ d o, (∀ e, (s.reqId e).isOffered = false) ∧ o.timer = none ∧
        ∀ e, t.reqId e = if d = e then .busy o else s.reqId e := fun h => .inl fun e => .inl (reqId_of_ext h e)
  have set : ∀ {u : State} {d x}, u.ext = (s.setReqId d x).ext → x.isOffered = false →
      ∀ e, u.reqId e = s.reqId e ∨ (u.reqId e).isOffered = false := fun {u d x} hu hx e => by
    rw [reqId_of_ext hu, reqId_setReqId]
    split
    · exact .inr hx
    · exact .inl rfl
  cases h with
  | stop q =>
    unfold State.stopQueue at *
    split at * <;> exact same rfl
  | abort q => exact same (outside_abortQueue s q).ext
  | take q c => exact same (outside_takeCommand s q c).ext
  | issue i j => exact same (outside_issueBurst s i j).ext
  | bankRead p i j b r c k => exact same (outside_readReturns (s.setBankPointer p i) i j b r _).ext
  | bankWrite p i j b w c k =>
    exact same (outside_writeDone { s.setBankPointer p i with memory := s.memory.writeBurst c k w.words } i j b w).ext
  | offer d i j b none free choice =>
    rcases offerRequest_cases s d i j b with e | ⟨r, -, -, e⟩ | ⟨w, -, -, e⟩
    · rw [e]
      exact .inl fun _ => .inl rfl
    · rw [e]
      exact .inr ⟨d, _, none, rfl, fun e => reqId_giveId _ d e i _ _ _⟩
    · rw [e]
      exact .inr ⟨d, _, none, rfl, fun e => reqId_giveId _ d e i _ _ _⟩
  | accept d o busy timer => exact .inl (set rfl rfl)
  | late d quarantined => exact .inl (set rfl rfl)
  | answer d o x y busy accepted given =>
    exact .inl (set (outside_deliver (s.setReqId d x) o y).ext (not_offered_of_not_busy given))
  | clear g v =>
    refine same ?_
    unfold State.writeTag
    split <;> rfl
  | xcfg v => exact .inl fun _ => .inl rfl
  | icplth v =>
    refine same ?_
    unfold State.writeIcplth
    split <;> rfl
  | pop => exact same (ext_popRecord s)
  | softReset => exact .inl fun e => .inr (by rw [reqId_softReset]; exact not_offered_of_not_busy (isBusy_softReset _))
  | pinReset => exact .inl fun e => .inr (by rw [reqId_pinReset]; rfl)
  | _ => exact same rfl

/-! ### Happenings that disturb no burst -/

/-- The slot holds no burst. -/
def SlotBare (x : Option Job) : Prop := ∀ j, x = some j → j.bursts = []

theorem slotBare_none : SlotBare none := fun _ h => nomatch h

theorem slotBare_some (h : j.bursts = []) : SlotBare (some j) := fun _ hl => Option.some.inj hl ▸ h

/-- Every slot is as it was, or holds no burst before and after; and the interlock is as it was. -/
structure Undisturbed (s t : State) : Prop where
  slots : ∀ k, t.slot k = s.slot k ∨ SlotBare (s.slot k) ∧ SlotBare (t.slot k)
  interlock : t.interlock = s.interlock

theorem undisturbed_of_same (slots : t.slots = s.slots) (interlock : t.interlock = s.interlock) : Undisturbed s t :=
  ⟨fun k => .inl (by rw [State.slot, slots]; rfl), interlock⟩

theorem Undisturbed.trans (h : Undisturbed s t) (k : Undisturbed t u) : Undisturbed s u := by
  refine ⟨fun i => ?_, k.interlock.trans h.interlock⟩
  rcases h.slots i with same | ⟨before, after⟩
  · rw [← same]
    exact k.slots i
  · rcases k.slots i with same | ⟨-, last⟩
    · exact .inr ⟨before, same ▸ after⟩
    · exact .inr ⟨before, last⟩

theorem undisturbed_setSlot (slot : s.slot i = some j) (bare : j.bursts = []) (same : l.bursts = j.bursts) :
    Undisturbed s (s.setSlot i (some l)) := by
  refine ⟨fun k => ?_, rfl⟩
  rw [slot_setSlot]
  split
  · subst_vars
    exact .inr ⟨slot ▸ slotBare_some bare, slotBare_some (same.trans bare)⟩
  · exact .inl rfl

theorem interlock_freeSlot (s : State) (i : SlotId) : (s.freeSlot i).interlock = s.interlock := by
  cases slot : s.slot i with
  | none => simp only [State.freeSlot, slot]
  | some j =>
    obtain ⟨v, vacated, e⟩ := freeSlot_vacates slot
    rw [e]
    rcases grantSlot_entered v i with ⟨-, e⟩ | ⟨_, _, _, _, -, -, -, entered⟩
    · rw [e]
      exact vacated.interlock
    · exact entered.interlock.trans vacated.interlock

/-- A slot without bursts is freed. -/
theorem undisturbed_freeSlot (slot : s.slot i = some j) (bare : j.bursts = []) : Undisturbed s (s.freeSlot i) := by
  refine ⟨fun k => ?_, interlock_freeSlot s i⟩
  by_cases e : k = i
  · subst e
    refine .inr ⟨slot ▸ slotBare_some bare, ?_⟩
    rcases slot_freeSlot_self slot with none | ⟨r, n, c, -, entered⟩
    · exact none ▸ slotBare_none
    · exact entered ▸ slotBare_some rfl
  · exact .inl (slot_freeSlot_ne s (Ne.symm e))

theorem undisturbed_finishIfOver (s : State) (i : SlotId) : Undisturbed s (s.finishIfOver i) := by
  rcases finishIfOver_cases s i with ⟨e, -⟩ | ⟨j, slot, isOver, finished⟩
  · rw [e]
    exact undisturbed_of_same rfl rfl
  · have bare := ((isOver_iff j).1 isOver).1
    have settled : Undisturbed s (s.setSlot i (some (Job.settled j))) := undisturbed_setSlot slot bare rfl
    rcases finished with ⟨-, -, e⟩ | ⟨-, e⟩ | e <;> rw [e]
    · have posting : Undisturbed s (s.setSlot i (some { Job.settled j with state := .posting })) :=
        undisturbed_setSlot slot bare rfl
      exact posting.trans (undisturbed_of_same rfl rfl)
    · have posted : Undisturbed s ((s.setSlot i (some (Job.settled j))).post (Job.record (Job.settled j))) :=
        settled.trans (undisturbed_of_same rfl rfl)
      exact posted.trans (undisturbed_freeSlot (slot_setSlot_self s i _) bare)
    · exact settled.trans (undisturbed_freeSlot (slot_setSlot_self s i _) bare)

theorem undisturbed_take (s : State) (q : QueueId) (c : HeldCommand) : Undisturbed s (s.takeCommand q c) := by
  have same : ∀ {t : State}, t.slots = s.slots → t.interlock = s.interlock → Undisturbed s t := undisturbed_of_same
  rcases takeCommand_cases s q c with
    ⟨r, e⟩ | ⟨l, -, ⟨i, free, e⟩ | ⟨-, e⟩⟩ | ⟨-, e⟩ | ⟨-, ⟨-, e⟩ | ⟨-, e⟩⟩ <;> rw [e]
  · exact same rfl rfl
  · have entered := entered_enterSlot s i q c.seq l
    refine ⟨fun k => ?_, entered.interlock⟩
    rw [entered.slots]
    split
    · subst_vars
      exact .inr ⟨free ▸ slotBare_none, slotBare_some rfl⟩
    · exact .inl rfl
  · exact same rfl rfl
  · obtain ⟨slots, interlock, -⟩ := evaluateFence_slots s q c
    exact same slots interlock
  · exact same rfl rfl
  · exact same rfl rfl

/-- The job that a pop frees waits to post, so it has no burst in flight. -/
theorem bare_of_first (fifo : FifoSound s) (jobs : JobsSound s) {ws : List Poster} (first : s.completion.waiters = .slot i :: ws)
    (slot : s.slot i = some j) : j.bursts = [] := by
  have can := fifo.2.2.2 (.slot i) (first ▸ List.mem_cons_self)
  have posting : j.state = .posting := by simpa [canPost, slot] using can
  exact ((jobs i j slot).2.2.2.2 posting).1

theorem undisturbed_pop (fifo : FifoSound s) (jobs : JobsSound s) : Undisturbed s s.popRecord := by
  rcases popRecord_cases s with ⟨x, e, -⟩ | ⟨r, rest, p, ws, -, first, ⟨q, c, cs, -, -, e⟩ | ⟨i, j, hp, slot, e⟩⟩ <;> rw [e]
  · exact undisturbed_of_same rfl rfl
  · exact undisturbed_of_same rfl rfl
  · have shown : Undisturbed s (s.setCompletion { fifo := rest ++ [j.record], waiters := ws, view := some r }) :=
      undisturbed_of_same rfl rfl
    exact shown.trans (undisturbed_freeSlot slot (bare_of_first fifo jobs (hp ▸ first) slot))

/-! ### The requests sent, slot by slot -/

/-- The request of burst n that the job of the slot has sent. -/
def SlotSent (x : Option Job) (n : Nat) (role : RequestRole) (a : Nat) : Prop := ∃ j, x = some j ∧ SentIn j.bursts n role a

/-- No burst of the slot has sent a request that is not external. -/
def SlotInside (x : Option Job) : Prop := ∀ j, x = some j → NoneStrayed j.bursts

/-- The same requests have been sent. -/
structure SlotSame (x y : Option Job) : Prop where
  sent : ∀ n role a, SlotSent y n role a ↔ SlotSent x n role a
  inside : SlotInside x → SlotInside y

theorem SlotSame.refl (x : Option Job) : SlotSame x x := ⟨fun _ _ _ => Iff.rfl, id⟩

theorem SlotSame.trans {z : Option Job} (h : SlotSame x y) (k : SlotSame y z) : SlotSame x z :=
  ⟨fun n role a => (k.sent n role a).trans (h.sent n role a), k.inside ∘ h.inside⟩

theorem slotSent_bare (h : SlotBare x) : ¬SlotSent x n role a := by
  rintro ⟨j, hj, b, hb, -⟩
  rw [h j hj] at hb
  cases hb

theorem slotSame_bare (hx : SlotBare x) (hy : SlotBare y) : SlotSame x y :=
  ⟨fun _ _ _ => iff_of_false (slotSent_bare hy) (slotSent_bare hx), fun _ j hj b hb => by
    rw [hy j hj] at hb
    cases hb⟩

/-- A grant sends no request. -/
theorem hasSent_granted {f : Burst → Burst} {old : Bool} (hf : ∀ b, f b = b ∨ b.state = .lockWait ∧ f b = b.startReading old)
    (sound : BurstSound b) : (∀ role a, hasSent role a (f b) ↔ hasSent role a b) ∧ (Strayed (f b) → Strayed b) := by
  rcases hf b with e | ⟨wait, e⟩
  · rw [e]
    exact ⟨fun _ _ => Iff.rfl, id⟩
  · rw [e]
    have waiting : b.state ≠ .writing := by
      rw [wait]
      exact nofun
    have started := burstSound_startReading sound waiting old
    refine ⟨fun role a => iff_of_false (not_hasSent started rfl (placedReads_unsent b old)) fun sent => ?_, fun strayed => ?_⟩
    · rcases hasSent_state sound sent with ⟨-, reading, -⟩ | ⟨-, writing⟩
      · exact nomatch wait.symm.trans reading
      · exact nomatch wait.symm.trans writing
    · refine strayed_of_fewer strayed (fun r hr sent => ?_) fun w hw _ => hw
      exact absurd sent (List.any_eq_false.1 (placedReads_unsent b old) r hr)

theorem slotSame_granted (h : Granted x y) (sound : ∀ j, x = some j → ∀ b ∈ j.bursts, BurstSound b) : SlotSame x y := by
  cases x with
  | none => exact h.1 rfl ▸ .refl _
  | some j =>
    obtain ⟨f, hf, hy⟩ := h.2 j rfl
    have index := (granted_map hf).1
    rw [hy]
    refine ⟨fun n role a => ⟨?_, ?_⟩, fun inside k hk c hc strayed => ?_⟩
    · rintro ⟨k, hk, c, hc, hn, sent⟩
      cases hk
      obtain ⟨b, hb, rfl⟩ := List.mem_map.1 hc
      exact ⟨j, rfl, b, hb, (index b).symm.trans hn, ((hasSent_granted hf (sound j rfl b hb)).1 role a).1 sent⟩
    · rintro ⟨k, hk, b, hb, hn, sent⟩
      cases hk
      exact ⟨_, rfl, f b, List.mem_map_of_mem hb, (index b).trans hn, ((hasSent_granted hf (sound j rfl b hb)).1 role a).2 sent⟩
    · cases hk
      obtain ⟨b, hb, rfl⟩ := List.mem_map.1 hc
      exact inside j rfl b hb ((hasSent_granted hf (sound j rfl b hb)).2 strayed)

/-- In every slot the same requests have been sent. -/
def SameRequests (s t : State) : Prop := ∀ k, SlotSame (s.slot k) (t.slot k)

theorem SameRequests.trans (h : SameRequests s t) (k : SameRequests t u) : SameRequests s u := fun i => (h i).trans (k i)

theorem sameRequests_of_slots (h : t.slots = s.slots) : SameRequests s t := fun k => by
  rw [State.slot, State.slot, h]
  exact .refl _

theorem sameRequests_of_undisturbed (h : Undisturbed s t) : SameRequests s t := fun k => by
  rcases h.slots k with same | ⟨before, after⟩
  · exact same ▸ .refl _
  · exact slotSame_bare before after

/-- What a turn leaves of the requests sent: all but the one that is over. -/
theorem turn_sent {g : RequestRole → Nat → Prop} (h : Turn s i j n g t) (slot : s.slot i = some j) (jobs : JobsSound s) :
    (∀ k, k ≠ i → SlotSame (s.slot k) (t.slot k)) ∧
      (∀ o role a, SlotSent (t.slot i) o role a ↔ SlotSent (s.slot i) o role a ∧ ¬(o = n ∧ g role a)) ∧
      (SlotInside (s.slot i) → SlotInside (t.slot i)) := by
  have sound : ∀ {k l}, s.slot k = some l → JobSound l := fun hl => jobs _ _ hl
  obtain ⟨v, m, turned, handled, landed⟩ := turn_turned h (sound slot)
  have finish : SameRequests v t := by
    rcases landed with ⟨rfl, -⟩ | rfl
    · exact fun k => .refl _
    · exact sameRequests_of_undisturbed (undisturbed_finishIfOver v i)
  have mine : SlotSame (some m) (t.slot i) :=
    (slotSame_granted turned.mine fun l hl b hb => (Option.some.inj hl ▸ handled.fit.1.2.2.2.2.1 b) hb |>.2).trans (finish i)
  refine ⟨fun k hk => ?_, fun o role a => ?_, fun inside => ?_⟩
  · exact (slotSame_granted (turned.others k hk) fun l hl b hb => ((sound hl).burst hb).2).trans (finish k)
  · rw [mine.sent, slot]
    constructor
    · rintro ⟨l, hl, sent⟩
      cases hl
      obtain ⟨sent, other⟩ := (handled.sent o role a).1 sent
      exact ⟨⟨j, rfl, sent⟩, other⟩
    · rintro ⟨⟨l, hl, sent⟩, other⟩
      cases hl
      exact ⟨m, rfl, (handled.sent o role a).2 ⟨sent, other⟩⟩
  · exact mine.inside fun l hl => Option.some.inj hl ▸ handled.strayed (inside j slot)

/-- A turn in which no external request ends. -/
theorem sameRequests_turn {g : RequestRole → Nat → Prop} (h : Turn s i j n g t) (slot : s.slot i = some j)
    (jobs : JobsSound s) (none : ∀ role a, ¬g role a) : SameRequests s t := by
  obtain ⟨others, sent, inside⟩ := turn_sent h slot jobs
  intro k
  by_cases e : k = i
  · subst e
    exact ⟨fun o role a => (sent o role a).trans (and_iff_left fun h => none role a h.2), inside⟩
  · exact others k e

/-! ### Each BUSY ID against the request it carries -/

/-- The request a BUSY ID carries. -/
def idRequest (x : IdState) : Option (SlotId × Nat × RequestRole × Nat) :=
  match x with
  | .busy o => some (o.slot, o.burst, o.role, o.address)
  | .free | .quarantined => none

theorem idRequest_iff {x : IdState} : idRequest x = some (k, n, role, a) ↔
    ∃ o, x = .busy o ∧ o.slot = k ∧ o.burst = n ∧ o.role = role ∧ o.address = a := by
  cases x <;> simp [idRequest]

theorem idRequest_of_not_busy {x : IdState} (h : x.isBusy = false) : idRequest x = none := by
  cases x with
  | busy o => cases h
  | free => rfl
  | quarantined => rfl

/-- The IDs carry the requests sent, each of them once, and every request sent is external. -/
structure RequestsCarried (s : State) : Prop where
  sent : ∀ k n role a, SlotSent (s.slot k) n role a ↔ ∃ d, idRequest (s.reqId d) = some (k, n, role, a)
  once : ∀ d e k n role a a', idRequest (s.reqId d) = some (k, n, role, a) →
    idRequest (s.reqId e) = some (k, n, role, a') → d = e
  inside : ∀ k, SlotInside (s.slot k)

theorem idsOwned_iff (s : State) : IdsOwned s ↔ RequestsCarried s := by
  constructor
  · rintro ⟨owned, once, ids⟩
    refine ⟨fun k n role a => ⟨?_, ?_⟩, fun d e k n role a a' hd he => ?_, fun k j slot c hc strayed => ?_⟩
    · rintro ⟨j, slot, c, hc, rfl, sent⟩
      obtain ⟨reads, writes⟩ := ids k j c ⟨slot, hc⟩
      cases role with
      | read p =>
        obtain ⟨r, hr, stage, rfl, place⟩ := hasSent_read.1 sent
        obtain ⟨d, o, busy, hk, hn, hrole, at_⟩ := reads r hr stage
        exact ⟨d, idRequest_iff.2 ⟨o, busy, hk, hn, hrole, Place.ext.inj (at_.symm.trans place)⟩⟩
      | write =>
        obtain ⟨w, hw, stage, place⟩ := hasSent_write.1 sent
        obtain ⟨d, o, busy, hk, hn, hrole, at_⟩ := writes w hw stage
        exact ⟨d, idRequest_iff.2 ⟨o, busy, hk, hn, hrole, Place.ext.inj (at_.symm.trans place)⟩⟩
    · rintro ⟨d, hd⟩
      obtain ⟨o, busy, rfl, rfl, rfl, rfl⟩ := idRequest_iff.1 hd
      obtain ⟨j, c, ⟨slot, hc⟩, hn, carried⟩ := owned d o busy
      exact ⟨j, slot, c, hc, hn, carried⟩
    · obtain ⟨o, busy, hk, hn, hrole, -⟩ := idRequest_iff.1 hd
      obtain ⟨p, busy', hk', hn', hrole', -⟩ := idRequest_iff.1 he
      exact once d e o p busy busy' (hk.trans hk'.symm) (hn.trans hn'.symm) (hrole.trans hrole'.symm)
    · obtain ⟨reads, writes⟩ := ids k j c ⟨slot, hc⟩
      rcases strayed with ⟨r, hr, sent, place⟩ | ⟨w, hw, sent, place⟩
      · obtain ⟨d, o, -, -, -, -, at_⟩ := reads r hr sent
        rw [at_] at place
        cases place
      · obtain ⟨d, o, -, -, -, -, at_⟩ := writes w hw sent
        rw [at_] at place
        cases place
  · rintro ⟨sent, once, inside⟩
    refine ⟨fun d o busy => ?_, fun d e o p busy busy' hk hn hrole => ?_, fun k j c ⟨slot, hc⟩ => ⟨fun r hr hs => ?_, fun w hw hs => ?_⟩⟩
    · obtain ⟨j, slot, c, hc, hn, carried⟩ := (sent o.slot o.burst o.role o.address).2 ⟨d, idRequest_iff.2 ⟨o, busy, rfl, rfl, rfl, rfl⟩⟩
      exact ⟨j, c, ⟨slot, hc⟩, hn, carried⟩
    · exact once d e o.slot o.burst o.role o.address p.address (idRequest_iff.2 ⟨o, busy, rfl, rfl, rfl, rfl⟩)
        (idRequest_iff.2 ⟨p, busy', hk.symm, hn.symm, hrole.symm, rfl⟩)
    · cases place : r.place with
      | bank z y => exact absurd (.inl ⟨r, hr, hs, by rw [place]; rfl⟩) (inside k j slot c hc)
      | ext a =>
        obtain ⟨d, hd⟩ := (sent k c.index (.read r.role) a).1 ⟨j, slot, c, hc, rfl, hasSent_read.2 ⟨r, hr, hs, rfl, place⟩⟩
        obtain ⟨o, busy, hk, hn, hrole, at_⟩ := idRequest_iff.1 hd
        exact ⟨d, o, busy, hk, hn, hrole, by rw [at_]⟩
    · cases place : w.place with
      | bank z y => exact absurd (.inr ⟨w, hw, hs, by rw [place]; rfl⟩) (inside k j slot c hc)
      | ext a =>
        obtain ⟨d, hd⟩ := (sent k c.index .write a).1 ⟨j, slot, c, hc, rfl, hasSent_write.2 ⟨w, hw, hs, place⟩⟩
        obtain ⟨o, busy, hk, hn, hrole, at_⟩ := idRequest_iff.1 hd
        exact ⟨d, o, busy, hk, hn, hrole, by rw [at_]⟩

theorem carried_same (requests : SameRequests s t) (ids : ∀ e, idRequest (t.reqId e) = idRequest (s.reqId e))
    (hs : RequestsCarried s) : RequestsCarried t := by
  obtain ⟨sent, once, inside⟩ := hs
  refine ⟨fun k n role a => ?_, fun d e => ?_, fun k => (requests k).inside (inside k)⟩
  · simp only [ids]
    exact ((requests k).sent n role a).trans (sent k n role a)
  · simp only [ids]
    exact once d e

/-- The request of one ID is over, and the ID is no more BUSY. -/
theorem carried_removed (held : idRequest (s.reqId d) = some (i, n, role, a)) (freed : idRequest (t.reqId d) = none)
    (ids : ∀ e, e ≠ d → t.reqId e = s.reqId e) (others : ∀ k, k ≠ i → SlotSame (s.slot k) (t.slot k))
    (mine : ∀ o r x, SlotSent (t.slot i) o r x ↔ SlotSent (s.slot i) o r x ∧ ¬(o = n ∧ r = role ∧ x = a))
    (inside : SlotInside (s.slot i) → SlotInside (t.slot i)) (hs : RequestsCarried s) : RequestsCarried t := by
  obtain ⟨sent, once, within⟩ := hs
  have still : ∀ {e p}, idRequest (t.reqId e) = some p → e ≠ d ∧ idRequest (s.reqId e) = some p := fun {e p} he => by
    have ne : e ≠ d := fun same => by
      rw [same, freed] at he
      cases he
    exact ⟨ne, ids e ne ▸ he⟩
  have kept : ∀ k o r x, (∃ e, idRequest (t.reqId e) = some (k, o, r, x)) ↔
      SlotSent (s.slot k) o r x ∧ ¬(k = i ∧ o = n ∧ r = role ∧ x = a) := fun k o r x => by
    rw [sent]
    constructor
    · rintro ⟨e, he⟩
      obtain ⟨ne, he⟩ := still he
      refine ⟨⟨e, he⟩, ?_⟩
      rintro ⟨rfl, rfl, rfl, rfl⟩
      exact ne (once e d _ _ _ _ _ he held)
    · rintro ⟨⟨e, he⟩, other⟩
      have ne : e ≠ d := by
        rintro rfl
        cases Option.some.inj (he.symm.trans held)
        exact other ⟨rfl, rfl, rfl, rfl⟩
      exact ⟨e, by rw [ids e ne]; exact he⟩
  refine ⟨fun k o r x => ?_, fun e f k o r x y he hf => once e f k o r x y (still he).2 (still hf).2, fun k => ?_⟩
  · rw [kept]
    by_cases e : k = i
    · subst e
      rw [mine]
      exact and_congr_right fun _ => not_congr (by simp)
    · rw [(others k e).sent]
      exact ⟨fun h => ⟨h, fun same => e same.1⟩, And.left⟩
  · by_cases e : k = i
    · exact e ▸ inside (within i)
    · exact (others k e).inside (within k)

/-- A request is sent on an ID that was not BUSY. -/
theorem carried_added (idle : idRequest (s.reqId d) = none) (given : idRequest (t.reqId d) = some (i, n, role, a))
    (ids : ∀ e, e ≠ d → t.reqId e = s.reqId e) (others : ∀ k, k ≠ i → SlotSame (s.slot k) (t.slot k))
    (mine : ∀ o r x, SlotSent (t.slot i) o r x ↔ SlotSent (s.slot i) o r x ∨ (o = n ∧ r = role ∧ x = a))
    (unsent : ∀ x, ¬SlotSent (s.slot i) n role x) (inside : SlotInside (s.slot i) → SlotInside (t.slot i))
    (hs : RequestsCarried s) : RequestsCarried t := by
  obtain ⟨sent, once, within⟩ := hs
  have new : ∀ {e p}, idRequest (t.reqId e) = some p → e = d ∧ p = (i, n, role, a) ∨ e ≠ d ∧ idRequest (s.reqId e) = some p :=
    fun {e p} he => by
      by_cases same : e = d
      · rw [same, given] at he
        exact .inl ⟨same, (Option.some.inj he).symm⟩
      · exact .inr ⟨same, ids e same ▸ he⟩
  have fresh : ∀ {e x}, idRequest (s.reqId e) ≠ some (i, n, role, x) := fun {e x} he =>
    unsent x ((sent i n role x).2 ⟨e, he⟩)
  refine ⟨fun k o r x => ?_, fun e f k o r x y he hf => ?_, fun k => ?_⟩
  · have carried : (∃ e, idRequest (t.reqId e) = some (k, o, r, x)) ↔
        SlotSent (s.slot k) o r x ∨ (k = i ∧ o = n ∧ r = role ∧ x = a) := by
      rw [sent]
      constructor
      · rintro ⟨e, he⟩
        rcases new he with ⟨-, same⟩ | ⟨-, he⟩
        · cases same
          exact .inr ⟨rfl, rfl, rfl, rfl⟩
        · exact .inl ⟨e, he⟩
      · rintro (⟨e, he⟩ | ⟨rfl, rfl, rfl, rfl⟩)
        · have ne : e ≠ d := by
            rintro rfl
            exact nomatch idle.symm.trans he
          exact ⟨e, by rw [ids e ne]; exact he⟩
        · exact ⟨d, given⟩
    rw [carried]
    by_cases e : k = i
    · subst e
      rw [mine]
      exact or_congr_right (by simp)
    · rw [(others k e).sent]
      exact ⟨.inl, fun h => h.elim id fun same => absurd same.1 e⟩
  · rcases new he with ⟨hd, same⟩ | ⟨-, he⟩
    · cases same
      rcases new hf with ⟨hd', -⟩ | ⟨-, hf⟩
      · exact hd.trans hd'.symm
      · exact absurd hf fresh
    · rcases new hf with ⟨-, same⟩ | ⟨-, hf⟩
      · cases same
        exact absurd he fresh
      · exact once e f k o r x y he hf
  · by_cases e : k = i
    · exact e ▸ inside (within i)
    · exact (others k e).inside (within k)

end Sys2Proof.Laws

/-!
PROOFS. The settlement of O57: the request IDs through each happening.
-/

namespace Sys2Proof.Laws

open Sys2Proof.Machine Sys2Proof.Safety

variable {s t u v : State} {q : QueueId} {i k : SlotId} {j l m : Job} {b c : Burst} {role : RequestRole} {a n : Nat}
  {d e : ReqId} {stores : Bool}

theorem sameRequests_placed (h : Placed s i j t) (slot : s.slot i = some j) : SameRequests s t := by
  have added : ∀ {cur : Option Cursor} {dst : List Place} {c : Burst}, Issued j dst c →
      SameRequests s (s.setSlot i (some (Job.addBurst { j with cursor := cur } c))) := fun {cur dst c} issued k => by
    rw [slot_setSlot]
    split
    · subst_vars
      rw [slot]
      refine ⟨fun n role a => ⟨?_, ?_⟩, fun inside l hl b hb => ?_⟩
      · rintro ⟨l, hl, b, hb, hn, sent⟩
        cases hl
        rcases List.mem_append.1 hb with hb | hb
        · exact ⟨j, rfl, b, hb, hn, sent⟩
        · exact absurd (List.mem_singleton.1 hb ▸ sent) (issued.unsent role a)
      · rintro ⟨l, hl, b, hb, sent⟩
        cases hl
        exact ⟨_, rfl, b, List.mem_append_left _ hb, sent⟩
      · cases hl
        rcases List.mem_append.1 hb with hb | hb
        · exact inside j rfl b hb
        · exact List.mem_singleton.1 hb ▸ issued.inside
    · exact .refl _
  cases h with
  | free cur c dst plain issued => exact added issued
  | granted cur c key locks issued => exact added issued
  | waits cur c key locks issued => exact added issued

theorem sameRequests_cancels (q : QueueId) (l : List SlotId) (queues : QueuesSound s) (jobs : JobsSound s) :
    SameRequests s (l.foldl (State.cancelJob q) s) := by
  induction l generalizing s with
  | nil => exact fun k => .refl _
  | cons i l ih =>
    refine SameRequests.trans ?_
      (ih (queuesSound_course (course_cancelJob s q i) queues) (cancel_sound q i queues jobs).1)
    rcases cancelJob_cases s q i with ⟨-, e⟩ | ⟨j, slot, -, running, e⟩
    · rw [e]
      exact fun k => .refl _
    · rw [e]
      exact sameRequests_turn (turn_cancel (n := 0) running) slot jobs fun _ _ => id

theorem sameRequests_abort (queues : QueuesSound s) (jobs : JobsSound s) (q : QueueId) : SameRequests s (s.abortQueue q) := by
  by_cases aborting : (s.queue q).state = .aborting
  · rw [abortQueue_aborting aborting]
    exact fun k => .refl _
  · rw [abortQueue_eq aborting]
    have cancelled : SameRequests s ((List.finRange 8).foldl (State.cancelJob q) (discarded s q)) :=
      sameRequests_cancels (s := discarded s q) q (List.finRange 8) (queuesSound_shift (shift_discarded s q) queues) jobs
    generalize (List.finRange 8).foldl (State.cancelJob q) (discarded s q) = v at cancelled ⊢
    exact cancelled

/-! ### OFFER -/

/-- A burst sends a request that waited at the external port. -/
structure Sends (b c : Burst) (role : RequestRole) (a : Nat) : Prop where
  index : c.index = b.index
  sent : ∀ r x, hasSent r x c ↔ hasSent r x b ∨ (r = role ∧ x = a)
  unsent : ∀ x, ¬hasSent role x b
  strayed : Strayed c → Strayed b

theorem sends_read {r : ReadRequest} (sound : BurstSound b) (hr : r ∈ b.reads) (waits : r.waitsAtExt = true) :
    Sends b (b.setRead r .sent) (.read r.role) r.place.extAddress := by
  obtain ⟨waiting, ext⟩ : r.stage = .waiting ∧ r.place.isExt = true := by
    simpa [ReadRequest.waitsAtExt, ReadRequest.isWaiting] using waits
  obtain ⟨a, place⟩ : ∃ a, r.place = .ext a := by
    cases e : r.place with
    | ext a => exact ⟨a, rfl⟩
    | bank => rw [e] at ext; cases ext
  have other : ∀ x : ReadRequest, x.isSent = true → x ≠ r := fun x sent e => by
    rw [e, ReadRequest.isSent, waiting] at sent
    cases sent
  have mem : ∀ x, x ∈ (b.setRead r .sent).reads → x.isSent = true → x ∈ b.reads ∨ x = { r with stage := .sent } :=
    fun x hx _ => by
      obtain ⟨y, hy, rfl⟩ := List.mem_map.1 hx
      split
      · exact .inr rfl
      · exact .inl hy
  have here : ({ r with stage := .sent } : ReadRequest) ∈ (b.setRead r .sent).reads := List.mem_map.2 ⟨r, hr, if_pos rfl⟩
  refine ⟨rfl, fun p x => ?_, fun x sent => ?_, fun strayed => ?_⟩
  · rw [place, Place.extAddress]
    cases p with
    | write => exact ⟨.inl, fun h => h.elim id fun e => nomatch e.1⟩
    | read p =>
      rw [hasSent_read, hasSent_read]
      constructor
      · rintro ⟨y, hy, sent, rfl, at_⟩
        rcases mem y hy sent with hy | rfl
        · exact .inl ⟨y, hy, sent, rfl, at_⟩
        · exact .inr ⟨rfl, Place.ext.inj (at_.symm.trans place)⟩
      · rintro (⟨y, hy, sent, rest⟩ | ⟨e, rfl⟩)
        · exact ⟨y, List.mem_map.2 ⟨y, hy, if_neg (other y sent)⟩, sent, rest⟩
        · exact ⟨_, here, rfl, (RequestRole.read.inj e).symm, place⟩
  · obtain ⟨y, hy, sent, same, at_⟩ := hasSent_read.1 sent
    exact other y sent (eq_of_countP_le_one (sound.2.2.2.2.2.1 r.role) hy hr (by simp [at_, same, Place.isExt]) (by simp [ext]))
  · refine strayed.imp (fun ⟨y, hy, sent, off⟩ => ?_) id
    rcases mem y hy sent with hy | rfl
    · exact ⟨y, hy, sent, off⟩
    · exact nomatch ext.symm.trans off

theorem sends_write {w : WriteRequest} (sound : BurstSound b) (hw : w ∈ b.writes) (waits : w.waitsAtExt = true) :
    Sends b (b.setWrite w .sent) .write w.place.extAddress := by
  obtain ⟨waiting, ext⟩ : w.stage = .waiting ∧ w.place.isExt = true := by
    simpa [WriteRequest.waitsAtExt] using waits
  obtain ⟨a, place⟩ : ∃ a, w.place = .ext a := by
    cases e : w.place with
    | ext a => exact ⟨a, rfl⟩
    | bank => rw [e] at ext; cases ext
  have other : ∀ x : WriteRequest, x.stage = .sent → x ≠ w := fun x sent e => nomatch (e ▸ sent).symm.trans waiting
  have mem : ∀ x, x ∈ (b.setWrite w .sent).writes → x ∈ b.writes ∨ x = { w with stage := .sent } := fun x hx => by
    obtain ⟨y, hy, rfl⟩ := List.mem_map.1 hx
    split
    · exact .inr rfl
    · exact .inl hy
  have here : ({ w with stage := .sent } : WriteRequest) ∈ (b.setWrite w .sent).writes := List.mem_map.2 ⟨w, hw, if_pos rfl⟩
  refine ⟨rfl, fun p x => ?_, fun x sent => ?_, fun strayed => ?_⟩
  · rw [place, Place.extAddress]
    cases p with
    | read p => exact ⟨.inl, fun h => h.elim id fun e => nomatch e.1⟩
    | write =>
      rw [hasSent_write, hasSent_write]
      constructor
      · rintro ⟨y, hy, sent, at_⟩
        rcases mem y hy with hy | rfl
        · exact .inl ⟨y, hy, sent, at_⟩
        · exact .inr ⟨rfl, Place.ext.inj (at_.symm.trans place)⟩
      · rintro (⟨y, hy, sent, rest⟩ | ⟨-, rfl⟩)
        · exact ⟨y, List.mem_map.2 ⟨y, hy, if_neg (other y sent)⟩, sent, rest⟩
        · exact ⟨_, here, rfl, place⟩
  · obtain ⟨y, hy, sent, at_⟩ := hasSent_write.1 sent
    exact other y sent (eq_of_countP_le_one sound.2.2.2.2.2.2 hy hw (by simp [at_, Place.isExt]) ext)
  · refine strayed.imp id fun ⟨y, hy, sent, off⟩ => ?_
    rcases mem y hy with hy | rfl
    · exact ⟨y, hy, sent, off⟩
    · exact nomatch ext.symm.trans off

theorem carried_sends (free : s.reqId d = .free) (slot : s.slot i = some j) (sound : JobSound j) (hb : b ∈ j.bursts)
    (sends : Sends b c role a) (hs : RequestsCarried s) :
    RequestsCarried ((s.setSlot i (some (j.putBurst c))).giveId d i b.index role a) := by
  obtain ⟨index, sent, unsent, strayed⟩ := sends
  have only : ∀ {x}, x ∈ j.bursts → x.index = b.index → x = b := fun hx e => eq_of_index sound.rising hx hb e
  have put : ((s.setSlot i (some (j.putBurst c))).giveId d i b.index role a).slot i = some (j.putBurst c) :=
    slot_setSlot_self s i _
  refine carried_added (d := d) (i := i) (n := b.index) (role := role) (a := a) (by rw [free]; rfl)
    (by rw [reqId_giveId, if_pos rfl]; rfl) (fun e ne => ?_) (fun k hk => ?_) (fun o r x => ?_) (fun x => ?_) (fun inside => ?_) hs
  · rw [reqId_giveId, if_neg (Ne.symm ne)]
    rfl
  · have same : ((s.setSlot i (some (j.putBurst c))).giveId d i b.index role a).slot k = s.slot k :=
      slot_setSlot_ne s i k _ (Ne.symm hk)
    exact same ▸ .refl _
  · rw [put, slot]
    constructor
    · rintro ⟨l, hl, y, hy, rfl, had⟩
      cases hl
      obtain ⟨z, hz, rfl⟩ := mem_putBurst.1 hy
      split at had
      · rw [if_pos ‹_›]
        exact ((sent r x).1 had).imp (fun had => ⟨j, rfl, b, hb, index.symm, had⟩) fun e => ⟨index, e⟩
      · rw [if_neg ‹_›]
        exact .inl ⟨j, rfl, z, hz, rfl, had⟩
    · rintro (⟨l, hl, y, hy, rfl, had⟩ | ⟨rfl, e⟩)
      · cases hl
        by_cases same : y.index = c.index
        · cases only hy (same.trans index)
          exact ⟨_, rfl, c, mem_putBurst.2 ⟨_, hy, if_pos same⟩, same.symm, (sent r x).2 (.inl had)⟩
        · exact ⟨_, rfl, y, mem_putBurst.2 ⟨y, hy, if_neg same⟩, rfl, had⟩
      · exact ⟨_, rfl, c, mem_putBurst.2 ⟨b, hb, if_pos index.symm⟩, index, (sent r x).2 (.inr e)⟩
  · rw [slot]
    rintro ⟨l, hl, y, hy, hn, had⟩
    cases hl
    exact unsent x (only hy hn ▸ had)
  · rw [put]
    intro l hl
    cases hl
    exact noneStrayed_putBurst hb strayed (inside j slot)

theorem carried_offer (free : s.reqId d = .free) (choice : s.extChoice = some (i, j, b)) (jobs : JobsSound s)
    (hs : RequestsCarried s) : RequestsCarried (s.offerRequest d i j b) := by
  obtain ⟨slot, hb, -⟩ := arbitrate_sound choice
  have sound : JobSound j := jobs i j slot
  rcases offerRequest_cases s d i j b with e | ⟨r, hr, waits, e⟩ | ⟨w, hw, waits, e⟩ <;> rw [e]
  · exact hs
  · exact carried_sends free slot sound hb (sends_read (sound.burst hb).2 hr waits) hs
  · exact carried_sends free slot sound hb (sends_write (sound.burst hb).2 hw waits) hs

/-! ### The happenings -/

theorem carried_answer {o : BusyId} {x : IdState} (busy : s.reqId d = .busy o) (given : x.isBusy = false) (y : ExtOutcome)
    (jobs : JobsSound s) (hs : RequestsCarried s) : RequestsCarried ((s.setReqId d x).deliver o y) := by
  have held : idRequest (s.reqId d) = some (o.slot, o.burst, o.role, o.address) := by rw [busy]; rfl
  obtain ⟨j, slot, b, hb, index, sent⟩ := (hs.sent o.slot o.burst o.role o.address).2 ⟨d, held⟩
  have sound : JobSound j := jobs o.slot j slot
  have found : j.bursts.find? (fun c => c.index = o.burst) = some b := by
    have some : (j.bursts.find? fun c => decide (c.index = o.burst)).isSome = true :=
      List.find?_isSome.2 ⟨b, hb, decide_eq_true index⟩
    obtain ⟨c, hc⟩ := Option.isSome_iff_exists.1 some
    have same : c.index = o.burst := by simpa using List.find?_some hc
    rw [hc, eq_of_index sound.rising (List.mem_of_find?_eq_some hc) hb (same.trans index.symm)]
  obtain ⟨z, turn⟩ := turn_carried (s := s.setReqId d x) slot found ((carries_iff o).2 sent) y
  obtain ⟨others, mine, inside⟩ := turn_sent turn slot jobs
  have ids : ∀ e, ((s.setReqId d x).deliver o y).reqId e = if d = e then x else s.reqId e := fun e =>
    (reqId_of_ext (outside_deliver (s.setReqId d x) o y).ext e).trans (reqId_setReqId s d e x)
  refine carried_removed held ?_ (fun e ne => ?_) others mine inside hs
  · rw [ids, if_pos rfl]
    exact idRequest_of_not_busy given
  · rw [ids, if_neg (Ne.symm ne)]

theorem carried_reset (slots : ∀ i, t.slot i = none) (ids : ∀ e, (t.reqId e).isBusy = false) : RequestsCarried t := by
  have idle : ∀ e, idRequest (t.reqId e) = none := fun e => idRequest_of_not_busy (ids e)
  refine ⟨fun k n role a => iff_of_false (slotSent_bare (slots k ▸ slotBare_none)) fun ⟨d, hd⟩ => ?_,
    fun d e k n role a a' hd => ?_, fun k j hj => ?_⟩
  · exact nomatch (idle d).symm.trans hd
  · exact nomatch (idle d).symm.trans hd
  · exact nomatch (slots k).symm.trans hj

theorem carried_happening (queues : QueuesSound s) (jobs : JobsSound s) (fifo : FifoSound s) (h : Happening s stores t)
    (hs : RequestsCarried s) : RequestsCarried t := by
  have kept : ∀ {t : State}, SameRequests s t → t.ext = s.ext → RequestsCarried t := fun requests ext =>
    carried_same requests (fun e => by rw [reqId_of_ext ext]) hs
  have same : ∀ {t : State}, t.slots = s.slots → t.ext = s.ext → RequestsCarried t := fun slots ext =>
    kept (sameRequests_of_slots slots) ext
  have set : ∀ {d x}, idRequest x = idRequest (s.reqId d) → RequestsCarried (s.setReqId d x) := fun {d x} hx =>
    carried_same (s := s) (t := s.setReqId d x) (sameRequests_of_slots rfl) (fun e => by
      rw [reqId_setReqId]
      split
      · subst_vars
        exact hx
      · rfl) hs
  cases h with
  | stop q =>
    unfold State.stopQueue
    split <;> exact same rfl rfl
  | abort q => exact kept (sameRequests_abort queues jobs q) (outside_abortQueue s q).ext
  | take q c => exact kept (sameRequests_of_undisturbed (undisturbed_take s q c)) (outside_takeCommand s q c).ext
  | issue i j slot may =>
    refine kept ?_ (outside_issueBurst s i j).ext
    rcases issueBurst_cases s i may with turn | placed
    · exact sameRequests_turn turn slot jobs fun _ _ => id
    · exact sameRequests_placed placed slot
  | bankRead p i j b r c k slot burst read waiting place =>
    have open_ : hasReturned r = false := by simp [hasReturned, ReadRequest.words?, waiting]
    obtain ⟨x, turn⟩ := turn_readReturns (s := s.setBankPointer p i) slot burst read open_ (s.memory.burstOutcome c k)
    have requests := sameRequests_turn turn slot jobs fun role a h => nomatch place.symm.trans h.2
    exact kept requests (outside_readReturns (s.setBankPointer p i) i j b r _).ext
  | bankWrite p i j b w c k slot burst write waiting place =>
    have turn := turn_writeDone (s := { s.setBankPointer p i with memory := s.memory.writeBurst c k w.words }) (i := i)
      burst write
    have requests := sameRequests_turn turn slot jobs fun role a h => nomatch place.symm.trans h.2
    exact kept requests
      (outside_writeDone { s.setBankPointer p i with memory := s.memory.writeBurst c k w.words } i j b w).ext
  | offer d i j b none free choice => exact carried_offer free choice jobs hs
  | accept d o busy timer => exact set (by rw [busy]; rfl)
  | late d quarantined => exact set (by rw [quarantined]; rfl)
  | answer d o x y busy accepted given => exact carried_answer busy given y jobs hs
  | clear g v =>
    unfold State.writeTag
    split <;> exact same rfl rfl
  | xcfg v => exact carried_same (s := s) (t := s.writeXcfg v) (sameRequests_of_slots rfl) (fun _ => rfl) hs
  | icplth v =>
    unfold State.writeIcplth
    split <;> exact same rfl rfl
  | pop => exact kept (sameRequests_of_undisturbed (undisturbed_pop fifo jobs)) (ext_popRecord s)
  | softReset => exact carried_reset slot_reset fun e => by rw [reqId_softReset]; exact isBusy_softReset _
  | pinReset => exact carried_reset slot_reset fun e => by rw [reqId_pinReset]; rfl
  | _ => exact same rfl rfl

/-- Settles O57. -/
theorem idOwnershipKept : Obligations.IdOwnershipKept := by
  refine ⟨fun s t queues jobs fifo owned h => ?_, fun s t one timers h => ?_⟩
  · obtain ⟨rest, stores, happening⟩ := happening_step h
    exact (idsOwned_iff t).2
      (carried_happening (s := s.withPending rest) queues jobs fifo happening ((idsOwned_iff (s.withPending rest)).1 owned))
  · obtain ⟨rest, stores, happening⟩ := happening_step h
    rcases happening_ids happening with fewer | ⟨d, o, idle, untimed, ids⟩
    · exact oneOffer_of_fewer (s := s.withPending rest) fewer ⟨one, timers⟩
    · exact oneOffer_given (s := s.withPending rest) idle untimed ids timers

end Sys2Proof.Laws

/-!
PROOFS. The interlock (chapter 06): what its table and wait list keep through a scan, a release, an ENDING and an issue.
-/

namespace Sys2Proof.Laws

open Sys2Proof.Machine Sys2Proof.Safety

variable {s t u v : State} {q : QueueId} {i k : SlotId} {j l m : Job} {b c : Burst} {n : Nat} {w : LockRequest}
  {stores : Bool} {x y : Option Job}

/-! ### The table and the wait list alone -/

/-- The waiter's key is held, or the table is full (R107). -/
def Blocked (l : Interlock) (w : LockRequest) : Prop := l.held w.key = true ∨ l.table.length = Config.lockEntries

theorem grants_false_iff {l : Interlock} {key : Place} (sound : TableSound l) :
    l.grants key = false ↔ l.held key = true ∨ l.table.length = Config.lockEntries := by
  have bound := sound.1
  unfold Interlock.grants
  rw [Bool.and_eq_false_iff, Bool.not_eq_false', decide_eq_false_iff_not]
  exact or_congr_right (by omega)

theorem tableSound_append {l : Interlock} (sound : TableSound l) (grants : l.grants w.key = true) (ws : List LockRequest) :
    TableSound { table := l.table ++ [w], waiters := ws } := by
  obtain ⟨free, room⟩ := (grants_iff l w.key).1 grants
  refine ⟨?_, List.pairwise_append.2 ⟨sound.2, List.pairwise_singleton _ _, fun d hd e he => ?_⟩⟩
  · rw [List.length_append]
    exact room
  · rw [List.mem_singleton.1 he]
    exact free d hd

theorem tableSound_filter {l : Interlock} (sound : TableSound l) (p : LockRequest → Bool) (ws : List LockRequest) :
    TableSound { table := l.table.filter p, waiters := ws } :=
  ⟨(List.length_filter_le _ _).trans sound.1, sound.2.filter p⟩

theorem held_append {l : Interlock} {ws : List LockRequest} {key : Place} :
    Interlock.held { table := l.table ++ [w], waiters := ws } key = true ↔ l.held key = true ∨ w.key = key := by
  simp [Interlock.held]

theorem scanWaiter_cases (s : State) (w : LockRequest) :
    (s.interlock.grants w.key = false ∧ s.scanWaiter w = s) ∨ s.interlock.grants w.key = true ∧ s.scanWaiter w =
      (s.setInterlock { table := s.interlock.table ++ [w], waiters := s.interlock.waiters.filter (· ≠ w) }).modJob
        w.slot fun j => j.startReading w.burst := by
  unfold State.scanWaiter
  split
  · exact .inr ⟨‹_›, rfl⟩
  · exact .inl ⟨Bool.eq_false_iff.2 ‹_›, rfl⟩

theorem interlock_modJob (s : State) (i : SlotId) (f : Job → Job) : (s.modJob i f).interlock = s.interlock := by
  unfold State.modJob
  split <;> rfl

/-- Once waiters are scanned, each of them that still waits is blocked. -/
theorem interlockSound_scan (l : List LockRequest) (table : TableSound s.interlock)
    (waiters : ∀ w ∈ s.interlock.waiters, w ∈ l ∨ Blocked s.interlock w) : InterlockSound (l.foldl State.scanWaiter s) := by
  induction l generalizing s with
  | nil => exact ⟨table, fun w hw => (waiters w hw).elim (fun h => nomatch h) id⟩
  | cons x l ih =>
    rcases scanWaiter_cases s x with ⟨blocked, e⟩ | ⟨grants, e⟩
    · rw [List.foldl_cons, e]
      refine ih table fun w hw => (waiters w hw).elim (fun h => ?_) .inr
      rcases List.mem_cons.1 h with rfl | h
      · exact .inr ((grants_false_iff table).1 blocked)
      · exact .inl h
    · have room := ((grants_iff _ _).1 grants).2
      rw [List.foldl_cons, e]
      refine ih (by rw [interlock_modJob]; exact tableSound_append table grants _) fun w hw => ?_
      rw [interlock_modJob] at hw ⊢
      obtain ⟨hw, ne⟩ := List.mem_filter.1 hw
      rcases waiters w hw with h | held | full
      · exact .inl ((List.mem_cons.1 h).resolve_left (of_decide_eq_true ne))
      · exact .inr (.inl (held_append.2 (.inl held)))
      · exact absurd full (Nat.ne_of_lt room)

theorem interlockSound_of_same (h : t.interlock = s.interlock) (hs : InterlockSound s) : InterlockSound t := by
  rw [InterlockSound, h]
  exact hs

theorem interlockSound_releaseEntry (i : SlotId) (n : Nat) (hs : InterlockSound s) : InterlockSound (s.releaseEntry i n) := by
  unfold State.releaseEntry
  split
  · exact interlockSound_scan _ (tableSound_filter hs.1 _ _) fun w hw => .inl hw
  · exact hs

theorem interlockSound_removeBurst (i : SlotId) (n : Nat) (hs : InterlockSound s) : InterlockSound (s.removeBurst i n) :=
  interlockSound_releaseEntry i n (interlockSound_of_same (interlock_modJob s i _) hs)

theorem interlockSound_applyEnding (i : SlotId) (j : Job) (hs : InterlockSound s) : InterlockSound (s.applyEnding i j) := by
  have removes : ∀ (l : List Burst) (v : State), InterlockSound v →
      InterlockSound (l.foldl (fun t b => t.removeBurst i b.index) v) := fun l => by
    induction l with
    | nil => exact fun _ => id
    | cons b l ih => exact fun v hv => ih _ (interlockSound_removeBurst i b.index hv)
  refine removes _ _ ⟨hs.1, fun w hw => hs.2 w (List.mem_filter.1 hw).1⟩

theorem interlockSound_turn {g : RequestRole → Nat → Prop} (h : Turn s i j n g t) (hs : InterlockSound s) :
    InterlockSound t := by
  have finish : ∀ {v : State}, InterlockSound v → InterlockSound (v.finishIfOver i) := fun hv =>
    interlockSound_of_same (undisturbed_finishIfOver _ i).interlock hv
  cases h with
  | put m => exact hs
  | leave m b => exact finish (interlockSound_releaseEntry (s := s.setSlot i (some m)) i b.index hs)
  | ending u l told =>
    have same : u.interlock = s.interlock := by
      rcases told with rfl | ⟨q, f, n, rfl⟩
      · rfl
      · exact (slots_reportJobFault s q f n).2
    exact finish (interlockSound_applyEnding i l (interlockSound_of_same same hs))

theorem interlockSound_placed (h : Placed s i j t) (hs : InterlockSound s) : InterlockSound t := by
  obtain ⟨table, waiters⟩ := hs
  cases h with
  | free => exact ⟨table, waiters⟩
  | granted cur c key locks issued begun grants =>
    have room := ((grants_iff _ _).1 grants).2
    refine ⟨tableSound_append (w := { key := key, slot := i, burst := j.next }) table grants _, fun w hw => ?_⟩
    rcases waiters w hw with held | full
    · exact .inl (held_append.2 (.inl held))
    · exact absurd full (Nat.ne_of_lt room)
  | waits cur c key locks issued waiting blocked =>
    refine ⟨table, fun w hw => ?_⟩
    rcases List.mem_append.1 hw with hw | hw
    · exact waiters w hw
    · rw [List.mem_singleton.1 hw]
      exact (grants_false_iff table).1 blocked

/-! ### The bursts as the interlock sees them -/

/-- A burst of a job, as the interlock sees it: whether the job is ACTIVE or DRAINING and reads its old destination, the
burst's index and destination, and whether it waits. -/
structure LockRow where
  running : Bool
  old : Bool
  index : Nat
  dests : List Place
  waits : Bool

def rowOf (j : Job) (b : Burst) : LockRow :=
  { running := j.isRunning, old := j.command.work.readsOldDestination, index := b.index, dests := b.dests
    waits := decide (b.state = .lockWait) }

/-- The slot holds a burst that the interlock sees so. -/
def HasRow (x : Option Job) (r : LockRow) : Prop := ∃ j b, x = some j ∧ b ∈ j.bursts ∧ rowOf j b = r

theorem hasRow_some {r : LockRow} : HasRow (some j) r ↔ ∃ b ∈ j.bursts, rowOf j b = r := by
  constructor
  · rintro ⟨k, b, hk, hb, hr⟩
    cases hk
    exact ⟨b, hb, hr⟩
  · rintro ⟨b, hb, hr⟩
    exact ⟨j, b, rfl, hb, hr⟩

theorem not_hasRow_bare {r : LockRow} (h : SlotBare x) : ¬HasRow x r := by
  rintro ⟨j, b, hj, hb, -⟩
  rw [h j hj] at hb
  cases hb

/-- The entries and waiters of the interlock against the bursts, and the bursts of a slot with distinct indices. -/
structure Locking (s : State) : Prop where
  distinct : ∀ i r p, HasRow (s.slot i) r → HasRow (s.slot i) p → r.index = p.index → r = p
  held : ∀ i r, HasRow (s.slot i) r → r.old = true → r.waits = false →
    ∃ e ∈ s.interlock.table, e.slot = i ∧ e.burst = r.index ∧ r.dests = [e.key]
  waiting : ∀ w ∈ s.interlock.waiters,
    HasRow (s.slot w.slot) { running := true, old := true, index := w.burst, dests := [w.key], waits := true }

/-- The bursts against the entries and waiters of the interlock. -/
structure Listing (s : State) : Prop where
  nodup : s.interlock.waiters.Nodup
  entries : ∀ e ∈ s.interlock.table, ∃ r, HasRow (s.slot e.slot) r ∧ r.old = true ∧ r.index = e.burst ∧
    r.dests = [e.key] ∧ r.waits = false
  listed : ∀ i r, HasRow (s.slot i) r → r.waits = true → ∃ w ∈ s.interlock.waiters, w.slot = i ∧ w.burst = r.index

/-- The bursts stay locked and listed. -/
def LocksKept (s t : State) : Prop := (Locking s → Locking t) ∧ (Locking s → Listing s → Listing t)

theorem LocksKept.refl (s : State) : LocksKept s s := ⟨id, fun _ => id⟩

theorem LocksKept.trans (h : LocksKept s t) (k : LocksKept t u) : LocksKept s u :=
  ⟨k.1 ∘ h.1, fun locking listing => k.2 (h.1 locking) (h.2 locking listing)⟩

theorem locksKept_of_rows (interlock : t.interlock = s.interlock)
    (rows : ∀ i r, HasRow (t.slot i) r ↔ HasRow (s.slot i) r) : LocksKept s t := by
  constructor
  · rintro ⟨distinct, held, waiting⟩
    refine ⟨fun i r p hr hp => distinct i r p ((rows i r).1 hr) ((rows i p).1 hp), fun i r hr => ?_, fun w hw => ?_⟩
    · rw [interlock]
      exact held i r ((rows i r).1 hr)
    · rw [interlock] at hw
      exact (rows _ _).2 (waiting w hw)
  · rintro - ⟨nodup, entries, listed⟩
    refine ⟨interlock ▸ nodup, fun e he => ?_, fun i r hr => ?_⟩
    · rw [interlock] at he
      obtain ⟨r, hr, rest⟩ := entries e he
      exact ⟨r, (rows _ r).2 hr, rest⟩
    · rw [interlock]
      exact listed i r ((rows i r).1 hr)

theorem locksKept_of_undisturbed (h : Undisturbed s t) : LocksKept s t := by
  refine locksKept_of_rows h.interlock fun i r => ?_
  rcases h.slots i with same | ⟨before, after⟩
  · rw [same]
  · exact iff_of_false (not_hasRow_bare after) (not_hasRow_bare before)

/-! The scan. -/

theorem hasRow_startReading {r : LockRow} : HasRow (x.map fun j => j.startReading n) r ↔
    (HasRow x r ∧ (r.index ≠ n ∨ r.waits = false)) ∨ (r.index = n ∧ r.waits = false ∧ HasRow x { r with waits := true }) := by
  cases x with
  | none =>
    refine iff_of_false (not_hasRow_bare slotBare_none) ?_
    rintro (⟨h, -⟩ | ⟨-, -, h⟩)
    · exact not_hasRow_bare slotBare_none h
    · exact not_hasRow_bare slotBare_none h
  | some j =>
    rw [Option.map_some, hasRow_some, hasRow_some, hasRow_some]
    constructor
    · rintro ⟨c, hc, rfl⟩
      obtain ⟨b, hb, rfl⟩ := List.mem_map.1 hc
      split
      · rename_i wait
        refine .inr ⟨wait.1, rfl, b, hb, ?_⟩
        simp only [rowOf, decide_eq_true wait.2]
        rfl
      · rename_i free
        refine .inl ⟨⟨b, hb, rfl⟩, ?_⟩
        by_cases same : b.index = n
        · exact .inr (decide_eq_false fun wait => free ⟨same, wait⟩)
        · exact .inl same
    · rintro (⟨⟨b, hb, rfl⟩, free⟩ | ⟨index, waits, b, hb, hr⟩)
      · refine ⟨b, List.mem_map.2 ⟨b, hb, if_neg fun wait => ?_⟩, rfl⟩
        rcases free with ne | free
        · exact ne wait.1
        · exact of_decide_eq_false free wait.2
      · have state : b.state = .lockWait := of_decide_eq_true (congrArg LockRow.waits hr)
        have same : b.index = n := (congrArg LockRow.index hr).trans index
        refine ⟨_, List.mem_map.2 ⟨b, hb, if_pos ⟨same, state⟩⟩, ?_⟩
        have started : rowOf (j.startReading n) (b.startReading j.command.work.readsOldDestination) =
            { rowOf j b with waits := false } := rfl
        rw [started, hr]
        cases r
        cases waits
        rfl

/-- What a grant to a waiter makes of the rows. -/
theorem hasRow_granted {r : LockRow} (z : Interlock) :
    HasRow (((s.setInterlock z).modJob w.slot fun j => j.startReading w.burst).slot k) r ↔
      (HasRow (s.slot k) r ∧ (w.slot ≠ k ∨ r.index ≠ w.burst ∨ r.waits = false)) ∨
        (w.slot = k ∧ r.index = w.burst ∧ r.waits = false ∧ HasRow (s.slot k) { r with waits := true }) := by
  rw [slot_modJob, slot_setInterlock]
  split
  · rw [hasRow_startReading]
    simp [*]
  · simp [*]

/-- A waiter that a scan reaches still waits, or its key has been granted. -/
theorem locksKept_scanWaiter (s : State) (hw : w ∈ s.interlock.waiters ∨ s.interlock.held w.key = true) :
    LocksKept s (s.scanWaiter w) := by
  rcases scanWaiter_cases s w with ⟨-, e⟩ | ⟨grants, e⟩
  · rw [e]
    exact .refl s
  rw [e]
  have mem : w ∈ s.interlock.waiters := hw.resolve_right fun held => by
    rw [grants_of_held held] at grants
    cases grants
  constructor
  · rintro ⟨distinct, held, waiting⟩
    have own := waiting w mem
    refine ⟨fun k r p hr hp same => ?_, fun k r hr old free => ?_, fun x hx => ?_⟩
    · have mixed : ∀ {r p : LockRow}, r.index = p.index → HasRow (s.slot k) r →
          (w.slot ≠ k ∨ r.index ≠ w.burst ∨ r.waits = false) → w.slot = k → p.index = w.burst →
          HasRow (s.slot k) { p with waits := true } → False := fun {r p} same hr other slot index hp => by
        have e := distinct k r _ hr hp same
        rcases other with ne | ne | free
        · exact ne slot
        · exact ne (same.trans index)
        · exact nomatch free.symm.trans (congrArg LockRow.waits e)
      rcases hasRow_granted _ |>.1 hr with ⟨hr, other⟩ | ⟨slot, index, free, hr⟩
      · rcases hasRow_granted _ |>.1 hp with ⟨hp, -⟩ | ⟨slot, index, -, hp⟩
        · exact distinct k r p hr hp same
        · exact (mixed same hr other slot index hp).elim
      · rcases hasRow_granted _ |>.1 hp with ⟨hp, other⟩ | ⟨-, -, free', hp⟩
        · exact (mixed same.symm hp other slot index hr).elim
        · have e := distinct k _ _ hr hp same
          cases r
          cases p
          cases free
          cases free'
          cases e
          rfl
    · rw [interlock_modJob]
      rcases hasRow_granted _ |>.1 hr with ⟨hr, -⟩ | ⟨rfl, index, -, hr⟩
      · obtain ⟨e, he, rest⟩ := held k r hr old free
        exact ⟨e, List.mem_append_left _ he, rest⟩
      · have e := distinct _ _ _ hr own index
        exact ⟨w, List.mem_append_right _ (List.mem_singleton_self w), rfl, index.symm, (congrArg LockRow.dests e : _)⟩
    · rw [interlock_modJob] at hx
      obtain ⟨hx, ne⟩ := List.mem_filter.1 hx
      refine (hasRow_granted _).2 (.inl ⟨waiting x hx, ?_⟩)
      by_contra same
      obtain ⟨slot, burst⟩ : w.slot = x.slot ∧ x.burst = w.burst := by simpa [not_or] using same
      have e := distinct x.slot _ _ (waiting x hx) (slot ▸ own) burst
      have key : x.key = w.key := by simpa using congrArg LockRow.dests e
      refine of_decide_eq_true ne ?_
      cases x
      cases w
      cases slot
      cases burst
      cases key
      rfl
  · rintro ⟨distinct, -, waiting⟩ ⟨nodup, entries, listed⟩
    refine ⟨?_, fun e he => ?_, fun k r hr waits => ?_⟩
    · rw [interlock_modJob]
      exact nodup.filter _
    · rw [interlock_modJob] at he
      rcases List.mem_append.1 he with he | he
      · obtain ⟨r, hr, old, index, dests, free⟩ := entries e he
        exact ⟨r, (hasRow_granted _).2 (.inl ⟨hr, .inr (.inr free)⟩), old, index, dests, free⟩
      · cases List.mem_singleton.1 he
        exact ⟨{ running := true, old := true, index := w.burst, dests := [w.key], waits := false },
          (hasRow_granted _).2 (.inr ⟨rfl, rfl, rfl, waiting w mem⟩), rfl, rfl, rfl, rfl⟩
    · rw [interlock_modJob]
      rcases hasRow_granted _ |>.1 hr with ⟨hr, other⟩ | ⟨-, -, free, -⟩
      · obtain ⟨x, hx, slot, burst⟩ := listed k r hr waits
        refine ⟨x, List.mem_filter.2 ⟨hx, decide_eq_true fun same => ?_⟩, slot, burst⟩
        subst same
        rcases other with ne | ne | free
        · exact ne slot
        · exact ne burst.symm
        · exact nomatch free.symm.trans waits
      · exact nomatch free.symm.trans waits

theorem locksKept_scan (l : List LockRequest) (hl : ∀ w ∈ l, w ∈ s.interlock.waiters ∨ s.interlock.held w.key = true) :
    LocksKept s (l.foldl State.scanWaiter s) := by
  induction l generalizing s with
  | nil => exact .refl s
  | cons x l ih =>
    refine (locksKept_scanWaiter s (hl x List.mem_cons_self)).trans (ih fun w hw => ?_)
    have before := hl w (List.mem_cons_of_mem _ hw)
    rcases scanWaiter_cases s x with ⟨-, e⟩ | ⟨-, e⟩
    · rw [e]
      exact before
    · rw [e, interlock_modJob]
      by_cases same : w = x
      · exact .inr (held_append.2 (.inr (congrArg LockRequest.key same.symm)))
      · exact before.imp (fun hw => List.mem_filter.2 ⟨hw, decide_eq_true same⟩) fun held => held_append.2 (.inl held)

/-! The end of a burst, an ENDING and an issue. -/

theorem hasRow_iff_view {r : LockRow} : HasRow (some j) r ↔ r.running = j.isRunning ∧
    r.old = j.command.work.readsOldDestination ∧ (r.index, r.dests, r.waits) ∈ j.bursts.map lockView := by
  rw [hasRow_some]
  constructor
  · rintro ⟨b, hb, rfl⟩
    exact ⟨rfl, rfl, List.mem_map_of_mem (f := lockView) hb⟩
  · rintro ⟨running, old, view⟩
    obtain ⟨b, hb, e⟩ := List.mem_map.1 view
    refine ⟨b, hb, ?_⟩
    cases r
    cases running
    cases old
    cases e
    rfl

theorem slotHasRow_setSlot {r : LockRow} (s : State) (i k : SlotId) (x : Option Job) :
    HasRow ((s.setSlot i x).slot k) r ↔ if i = k then HasRow x r else HasRow (s.slot k) r := by
  rw [slot_setSlot]
  split <;> exact Iff.rfl

theorem locksKept_put (slot : s.slot i = some j) (command : m.command = j.command) (state : m.state = j.state)
    (view : m.bursts.map lockView = j.bursts.map lockView) : LocksKept s (s.setSlot i (some m)) := by
  refine locksKept_of_rows rfl fun k r => ?_
  rw [slotHasRow_setSlot]
  split
  · subst_vars
    rw [slot, hasRow_iff_view, hasRow_iff_view, view, command, Job.isRunning, Job.isRunning, state]
  · exact Iff.rfl

/-- The interlock without the entry of a burst. -/
def withoutEntry (z : Interlock) (i : SlotId) (n : Nat) : Interlock :=
  { z with table := z.table.filter fun e => !e.ownedBy i n }

theorem mem_withoutEntry {z : Interlock} {e : LockRequest} :
    e ∈ (withoutEntry z i n).table ↔ e ∈ z.table ∧ ¬(e.slot = i ∧ e.burst = n) := by
  rw [withoutEntry, List.mem_filter, Bool.not_eq_true', ← Bool.not_eq_true, ownedBy_iff]

theorem releaseEntry_eq_scan (s : State) (i : SlotId) (n : Nat) :
    s.releaseEntry i n = s ∧ withoutEntry s.interlock i n = s.interlock ∨
      s.releaseEntry i n = (s.setInterlock (withoutEntry s.interlock i n)).scanWaiters := by
  unfold State.releaseEntry
  split
  · exact .inr rfl
  · rename_i none
    refine .inl ⟨rfl, ?_⟩
    have all : s.interlock.table.filter (fun e => !e.ownedBy i n) = s.interlock.table :=
      List.filter_eq_self.2 fun e he => by
        rw [Bool.not_eq_true', Bool.eq_false_iff]
        exact fun own => none (List.any_eq_true.2 ⟨e, he, own⟩)
    rw [withoutEntry, all]

/-- A burst that does not wait leaves with its entry. -/
theorem locksKept_leave (slot : s.slot i = some j) (command : m.command = j.command) (state : m.state = j.state)
    (bursts : m.bursts = j.bursts.filter fun b => b.index ≠ n)
    (free : ∀ b ∈ j.bursts, b.index = n → b.state ≠ .lockWait) :
    LocksKept s ((s.setSlot i (some m)).releaseEntry i n) := by
  have rows : ∀ k r, HasRow ((s.setSlot i (some m)).slot k) r ↔ HasRow (s.slot k) r ∧ ¬(i = k ∧ r.index = n) := fun k r => by
    rw [slotHasRow_setSlot]
    split
    · subst_vars
      rw [slot, hasRow_some, hasRow_some, bursts]
      have same : rowOf m = rowOf j := by
        funext b
        simp only [rowOf, command, Job.isRunning, state]
      rw [same]
      constructor
      · rintro ⟨b, hb, rfl⟩
        obtain ⟨hb, ne⟩ := List.mem_filter.1 hb
        exact ⟨⟨b, hb, rfl⟩, fun h => of_decide_eq_true ne h.2⟩
      · rintro ⟨⟨b, hb, rfl⟩, other⟩
        exact ⟨b, List.mem_filter.2 ⟨hb, decide_eq_true fun e => other ⟨rfl, e⟩⟩, rfl⟩
    · rename_i ne
      exact ⟨fun h => ⟨h, fun e => ne e.1⟩, And.left⟩
  have gone : LocksKept s ((s.setSlot i (some m)).setInterlock (withoutEntry s.interlock i n)) := by
    constructor
    · rintro ⟨distinct, held, waiting⟩
      refine ⟨fun k r p hr hp => distinct k r p ((rows k r).1 hr).1 ((rows k p).1 hp).1, fun k r hr old free => ?_,
        fun w hw => (rows _ _).2 ⟨waiting w hw, ?_⟩⟩
      · obtain ⟨hr, other⟩ := (rows k r).1 hr
        obtain ⟨e, he, hk, hn, dests⟩ := held k r hr old free
        exact ⟨e, mem_withoutEntry.2 ⟨he, fun own => other ⟨own.1.symm.trans hk, hn.symm.trans own.2⟩⟩, hk, hn, dests⟩
      · rintro ⟨here, index⟩
        obtain ⟨j', b, hj, hb, e⟩ := waiting w hw
        rw [← here, slot] at hj
        cases hj
        exact free b hb ((congrArg LockRow.index e).trans index) (of_decide_eq_true (congrArg LockRow.waits e))
    · rintro - ⟨nodup, entries, listed⟩
      refine ⟨nodup, fun e he => ?_, fun k r hr waits => listed k r ((rows k r).1 hr).1 waits⟩
      obtain ⟨he, other⟩ := mem_withoutEntry.1 he
      obtain ⟨r, hr, old, index, rest⟩ := entries e he
      exact ⟨r, (rows _ r).2 ⟨hr, fun h => other ⟨h.1.symm, index.symm.trans h.2⟩⟩, old, index, rest⟩
  rcases releaseEntry_eq_scan (s.setSlot i (some m)) i n with ⟨e, same⟩ | e
  · rw [e]
    rw [setSlot_interlock] at same
    rw [same] at gone
    exact gone
  · rw [e]
    exact gone.trans (locksKept_scan _ fun w hw => .inl hw)

/-- Bursts of a job none of which waits leave one by one. -/
theorem locksKept_removeBursts (l : List Burst) (slot : s.slot i = some j) (free : ∀ b ∈ j.bursts, b.state ≠ .lockWait) :
    LocksKept s (l.foldl (fun t b => t.removeBurst i b.index) s) := by
  induction l generalizing s j with
  | nil => exact .refl s
  | cons b l ih =>
    have left := slot_removeBurst slot b.index free
    have once : LocksKept s (s.removeBurst i b.index) := by
      have put : s.modJob i (fun j => { j with bursts := j.bursts.filter fun c => c.index ≠ b.index }) =
          s.setSlot i (some { j with bursts := j.bursts.filter fun c => c.index ≠ b.index }) := by
        simp only [State.modJob, slot]
      rw [State.removeBurst, put]
      exact locksKept_leave (j := j) slot rfl rfl rfl fun c hc _ => free c hc
    exact once.trans (ih left fun c hc => free c (List.mem_filter.1 hc).1)

theorem lockView_withdraw (b : Burst) : lockView b.withdraw = lockView b := by
  unfold Burst.withdraw
  split <;> rfl

/-- A job enters ENDING: its bursts that wait are dropped, and the others that end leave one by one. -/
theorem locksKept_applyEnding (slot : s.slot i = some j) (command : l.command = j.command)
    (view : l.bursts.map lockView = j.bursts.map lockView) : LocksKept s (s.applyEnding i l) := by
  have rows : ∀ r, HasRow (some { l with state := .ending, bursts := withdrawn l.bursts }) r ↔
      r.running = false ∧ r.waits = false ∧ ∃ p, HasRow (s.slot i) p ∧ r = { p with running := false } := fun r => by
    rw [hasRow_iff_view, slot, command]
    have mem : ∀ v : Nat × List Place × Bool, v ∈ (withdrawn l.bursts).map lockView ↔
        v ∈ j.bursts.map lockView ∧ v.2.2 = false := fun v => by
      rw [← view]
      constructor
      · intro hv
        obtain ⟨c, hc, rfl⟩ := List.mem_map.1 hv
        obtain ⟨b, hb, rfl⟩ := List.mem_map.1 hc
        obtain ⟨hb, free⟩ := List.mem_filter.1 hb
        rw [lockView_withdraw]
        exact ⟨List.mem_map_of_mem hb, decide_eq_false (of_decide_eq_true free)⟩
      · rintro ⟨hv, free⟩
        obtain ⟨b, hb, rfl⟩ := List.mem_map.1 hv
        exact List.mem_map.2 ⟨b.withdraw, List.mem_map_of_mem
          (List.mem_filter.2 ⟨hb, decide_eq_true (of_decide_eq_false free)⟩), lockView_withdraw b⟩
    rw [mem]
    constructor
    · rintro ⟨running, old, hv, free⟩
      refine ⟨running, free, { r with running := j.isRunning }, hasRow_iff_view.2 ⟨rfl, old, hv⟩, ?_⟩
      cases r
      cases running
      rfl
    · rintro ⟨running, free, p, hp, rfl⟩
      obtain ⟨-, old, hv⟩ := hasRow_iff_view.1 hp
      exact ⟨rfl, old, hv, free⟩
  have entered : LocksKept s ((s.setSlot i (some { l with state := .ending, bursts := withdrawn l.bursts })).setInterlock
      { s.interlock with waiters := s.interlock.waiters.filter fun w => w.slot ≠ i }) := by
    have all : ∀ k r, HasRow ((s.setSlot i (some { l with state := .ending, bursts := withdrawn l.bursts })).slot k) r →
        (i ≠ k ∧ HasRow (s.slot k) r) ∨
          i = k ∧ r.waits = false ∧ ∃ p, HasRow (s.slot k) p ∧ r = { p with running := false } := fun k r hr => by
      rw [slotHasRow_setSlot] at hr
      split at hr
      · subst_vars
        obtain ⟨-, free, p⟩ := (rows r).1 hr
        exact .inr ⟨rfl, free, p⟩
      · exact .inl ⟨‹_›, hr⟩
    constructor
    · rintro ⟨distinct, held, waiting⟩
      refine ⟨fun k r p hr hp same => ?_, fun k r hr old free => ?_, fun w hw => ?_⟩
      · rcases all k r hr with ⟨ne, hr⟩ | ⟨here, -, x, hx, rfl⟩
        · exact ((all k p hp).resolve_right fun h => ne h.1).2 |> fun hp => distinct k r p hr hp same
        · obtain ⟨-, -, y, hy, rfl⟩ := (all k p hp).resolve_left fun h => h.1 here
          rw [distinct k x y hx hy same]
      · rcases all k r hr with ⟨-, hr⟩ | ⟨-, -, x, hx, rfl⟩
        · exact held k r hr old free
        · exact held k x hx old free
      · obtain ⟨hw, away⟩ := List.mem_filter.1 hw
        have ne : i ≠ w.slot := fun e => of_decide_eq_true away e.symm
        exact (slotHasRow_setSlot s i w.slot _).2 ((if_neg ne).symm ▸ waiting w hw)
    · rintro - ⟨nodup, entries, listed⟩
      refine ⟨nodup.filter _, fun e he => ?_, fun k r hr waits => ?_⟩
      · obtain ⟨r, hr, old, index, dests, free⟩ := entries e he
        by_cases here : i = e.slot
        · exact ⟨{ r with running := false }, (slotHasRow_setSlot s i e.slot _).2
            ((if_pos here).symm ▸ (rows _).2 ⟨rfl, free, r, here ▸ hr, rfl⟩), old, index, dests, free⟩
        · exact ⟨r, (slotHasRow_setSlot s i e.slot _).2 ((if_neg here).symm ▸ hr), old, index, dests, free⟩
      · rcases all k r hr with ⟨ne, hr⟩ | ⟨-, free, -⟩
        · obtain ⟨w, hw, slot, burst⟩ := listed k r hr waits
          exact ⟨w, List.mem_filter.2 ⟨hw, decide_eq_true fun e => ne (e.symm.trans slot)⟩, slot, burst⟩
        · exact nomatch free.symm.trans waits
  exact entered.trans (locksKept_removeBursts _ (slot_setSlot_self s i _) withdrawn_not_lockWait)

end Sys2Proof.Laws

/-!
PROOFS. The settlement of O55 and O56: the interlock through each happening.
-/

namespace Sys2Proof.Laws

open Sys2Proof.Machine Sys2Proof.Safety

variable {s t u v : State} {q : QueueId} {i k : SlotId} {j l m : Job} {b c : Burst} {n : Nat} {w : LockRequest}
  {stores : Bool}

/-! ### An issue -/

/-- What the interlock gains with a burst issued: nothing for a burst that locks nothing, else its entry or its place on
the wait list. -/
inductive Joined (i : SlotId) (r : LockRow) (y z : Interlock) : Prop
  | free (plain : r.old = false) (begun : r.waits = false) (same : z = y)
  | granted (w : LockRequest) (locks : r.old = true) (begun : r.waits = false) (slot : w.slot = i) (burst : w.burst = r.index)
      (dests : r.dests = [w.key]) (joined : z = { y with table := y.table ++ [w] })
  | waits (w : LockRequest) (slot : w.slot = i)
      (row : r = { running := true, old := true, index := w.burst, dests := [w.key], waits := true })
      (joined : z = { y with waiters := y.waiters ++ [w] })

theorem locksKept_joined {r : LockRow} (rows : ∀ k p, HasRow (t.slot k) p ↔ HasRow (s.slot k) p ∨ k = i ∧ p = r)
    (fresh : ∀ p, HasRow (s.slot i) p → p.index ≠ r.index) (joined : Joined i r s.interlock t.interlock) : LocksKept s t := by
  constructor
  · rintro ⟨distinct, held, waiting⟩
    refine ⟨fun k p o hp ho same => ?_, fun k p hp old begun => ?_, fun w hw => ?_⟩
    · rcases (rows k p).1 hp with hp | ⟨rfl, rfl⟩ <;> rcases (rows k o).1 ho with ho | ⟨here, rfl⟩
      · exact distinct k p o hp ho same
      · exact absurd same (fresh p (here ▸ hp))
      · exact absurd same.symm (fresh o ho)
      · rfl
    · have kept : ∀ e ∈ s.interlock.table, e ∈ t.interlock.table := fun e he => by
        cases joined with
        | free plain begun same => exact same ▸ he
        | granted w locks begun slot burst dests same => exact same ▸ List.mem_append_left _ he
        | waits w slot row same => exact same ▸ he
      rcases (rows k p).1 hp with hp | ⟨rfl, rfl⟩
      · obtain ⟨e, he, rest⟩ := held k p hp old begun
        exact ⟨e, kept e he, rest⟩
      · cases joined with
        | free plain => exact nomatch plain.symm.trans old
        | granted w locks begun slot burst dests same =>
          exact ⟨w, same ▸ List.mem_append_right _ (List.mem_singleton_self w), slot, burst, dests⟩
        | waits w slot row => exact nomatch begun.symm.trans (congrArg LockRow.waits row)
    · refine (rows _ _).2 ?_
      cases joined with
      | free plain begun same => exact .inl (waiting w (same ▸ hw))
      | granted x locks begun slot burst dests same =>
        rw [same] at hw
        exact .inl (waiting w hw)
      | waits x slot row same =>
        rw [same] at hw
        rcases List.mem_append.1 hw with hw | hw
        · exact .inl (waiting w hw)
        · cases List.mem_singleton.1 hw
          exact .inr ⟨slot, row.symm⟩
  · rintro ⟨-, -, waiting⟩ ⟨nodup, entries, listed⟩
    have carried : ∀ e ∈ s.interlock.table, ∃ p, HasRow (t.slot e.slot) p ∧ p.old = true ∧ p.index = e.burst ∧
        p.dests = [e.key] ∧ p.waits = false := fun e he => by
      obtain ⟨p, hp, rest⟩ := entries e he
      exact ⟨p, (rows _ p).2 (.inl hp), rest⟩
    have before : r.waits = false → ∀ {k p}, HasRow (t.slot k) p → p.waits = true → HasRow (s.slot k) p :=
      fun begun {k p} hp waits => ((rows k p).1 hp).resolve_right fun new => by
        rw [new.2, begun] at waits
        cases waits
    cases joined with
    | free plain begun same =>
      refine ⟨same ▸ nodup, fun e he => carried e (same ▸ he), fun k p hp waits => ?_⟩
      rw [same]
      exact listed k p (before begun hp waits) waits
    | granted w locks begun slot burst dests same =>
      refine ⟨by rw [same]; exact nodup, fun e he => ?_, fun k p hp waits => ?_⟩
      · rw [same] at he
        rcases List.mem_append.1 he with he | he
        · exact carried e he
        · cases List.mem_singleton.1 he
          exact ⟨r, (rows _ r).2 (.inr ⟨slot, rfl⟩), locks, burst.symm, dests, begun⟩
      · rw [same]
        exact listed k p (before begun hp waits) waits
    | waits w slot row same =>
      have new : w ∉ s.interlock.waiters := fun hw =>
        fresh _ (slot ▸ waiting w hw) (congrArg LockRow.index row).symm
      refine ⟨?_, fun e he => carried e (by rw [same] at he; exact he), fun k p hp waits => ?_⟩
      · rw [same]
        exact List.nodup_append.2 ⟨nodup, List.nodup_singleton w, fun x hx y hy e =>
          new (List.mem_singleton.1 hy ▸ e ▸ hx)⟩
      · rw [same]
        rcases (rows k p).1 hp with hp | ⟨rfl, rfl⟩
        · obtain ⟨x, hx, rest⟩ := listed k p hp waits
          exact ⟨x, List.mem_append_left _ hx, rest⟩
        · exact ⟨w, List.mem_append_right _ (List.mem_singleton_self w), slot, (congrArg LockRow.index row).symm⟩

theorem locksKept_placed (h : Placed s i j t) (slot : s.slot i = some j) (sound : JobSound j) (active : j.state = .active) :
    LocksKept s t := by
  have fresh : ∀ {r : LockRow}, r.index = j.next → ∀ p, HasRow (s.slot i) p → p.index ≠ r.index := fun hr p hp => by
    rw [slot] at hp
    obtain ⟨b, hb, rfl⟩ := hasRow_some.1 hp
    rw [hr]
    exact Nat.ne_of_lt (sound.burst hb).1
  have rows : ∀ {cur : Option Cursor} {c : Burst} {z : State},
      z.slots = (s.setSlot i (some (Job.addBurst { j with cursor := cur } c))).slots → ∀ k p,
      HasRow (z.slot k) p ↔ HasRow (s.slot k) p ∨ k = i ∧ p = rowOf j c := fun {cur c z} same k p => by
    have row : rowOf (Job.addBurst { j with cursor := cur } c) = rowOf j := by
      funext b
      have before : j.isRunning = true := by simp [Job.isRunning, active]
      have after : (Job.addBurst { j with cursor := cur } c).isRunning = true := addBurst_running active c
      simp only [rowOf, before, after]
      rfl
    rw [State.slot, same]
    refine (slotHasRow_setSlot s i k _).trans ?_
    split
    · subst_vars
      rw [slot, hasRow_some, hasRow_some, row]
      constructor
      · rintro ⟨b, hb, rfl⟩
        rcases List.mem_append.1 hb with hb | hb
        · exact .inl ⟨b, hb, rfl⟩
        · exact .inr ⟨rfl, congrArg _ (List.mem_singleton.1 hb)⟩
      · rintro (⟨b, hb, rfl⟩ | ⟨-, rfl⟩)
        · exact ⟨b, List.mem_append_left _ hb, rfl⟩
        · exact ⟨c, List.mem_append_right _ (List.mem_singleton_self c), rfl⟩
    · rename_i ne
      exact ⟨.inl, fun h => h.resolve_right fun e => ne e.1.symm⟩
  cases h with
  | free cur c dst plain issued begun =>
    exact locksKept_joined (rows rfl) (fresh issued.index) (.free plain (decide_eq_false begun) rfl)
  | granted cur c key locks issued begun =>
    exact locksKept_joined (rows rfl) (fresh issued.index)
      (.granted { key := key, slot := i, burst := j.next } locks (decide_eq_false begun) rfl issued.index.symm issued.dests rfl)
  | waits cur c key locks issued waiting =>
    refine locksKept_joined (rows rfl) (fresh issued.index) (.waits { key := key, slot := i, burst := j.next } rfl ?_ rfl)
    simp only [rowOf, Job.isRunning, active, locks, issued.index, issued.dests, waiting]
    rfl

/-! ### The turns -/

theorem locksKept_turn {g : RequestRole → Nat → Prop} (h : Turn s i j n g t) (slot : s.slot i = some j) (sound : JobSound j) :
    LocksKept s t := by
  cases h with
  | put m facts =>
    obtain ⟨handled, -, state, view⟩ := facts sound
    exact locksKept_put slot handled.command state view
  | leave m b facts =>
    obtain ⟨handled, state, hb, free, bursts⟩ := facts sound
    have left := locksKept_leave slot handled.command state bursts fun c hc same =>
      eq_of_index sound.rising hc hb same ▸ free
    exact left.trans (locksKept_of_undisturbed (undisturbed_finishIfOver _ i))
  | ending u l told facts =>
    obtain ⟨handled, -, view⟩ := facts sound
    obtain ⟨slots, interlock⟩ : u.slots = s.slots ∧ u.interlock = s.interlock := by
      rcases told with rfl | ⟨q, f, n, rfl⟩
      · exact ⟨rfl, rfl⟩
      · exact slots_reportJobFault s q f n
    have reported : LocksKept s u := locksKept_of_undisturbed (undisturbed_of_same slots interlock)
    have slot' : u.slot i = some j := by
      rw [State.slot, slots]
      exact slot
    have entered : LocksKept u (u.applyEnding i l) := locksKept_applyEnding slot' handled.command view
    exact (reported.trans entered).trans (locksKept_of_undisturbed (undisturbed_finishIfOver _ i))

theorem locksKept_cancels (q : QueueId) (l : List SlotId) (queues : QueuesSound s) (jobs : JobsSound s) :
    LocksKept s (l.foldl (State.cancelJob q) s) := by
  induction l generalizing s with
  | nil => exact .refl s
  | cons i l ih =>
    refine LocksKept.trans ?_
      (ih (queuesSound_course (course_cancelJob s q i) queues) (cancel_sound q i queues jobs).1)
    rcases cancelJob_cases s q i with ⟨-, e⟩ | ⟨j, slot, -, running, e⟩
    · rw [e]
      exact .refl s
    · rw [e]
      exact locksKept_turn (turn_cancel (n := 0) running) slot (jobs i j slot)

theorem interlockSound_cancels (q : QueueId) (l : List SlotId) (hs : InterlockSound s) :
    InterlockSound (l.foldl (State.cancelJob q) s) := by
  induction l generalizing s with
  | nil => exact hs
  | cons i l ih =>
    refine ih ?_
    rcases cancelJob_cases s q i with ⟨-, e⟩ | ⟨j, slot, -, running, e⟩
    · rw [e]
      exact hs
    · rw [e]
      exact interlockSound_turn (turn_cancel (n := 0) running) hs

/-! ### The happenings -/

theorem interlock_popRecord (s : State) : s.popRecord.interlock = s.interlock := by
  rcases popRecord_cases s with ⟨x, e, -⟩ | ⟨r, rest, p, ws, -, -, ⟨q, c, cs, -, -, e⟩ | ⟨i, j, -, -, e⟩⟩
  · rw [e]
    rfl
  · rw [e]
    rfl
  · rw [e]
    exact interlock_freeSlot _ i

/-- What a happening comes to, as the interlock sees it. -/
inductive LockEffect (s t : State) : Prop
  | undisturbed (h : Undisturbed s t)
  | same (interlock : t.interlock = s.interlock) (kept : JobsSound s → LocksKept s t)
  | pop (popped : t = s.popRecord)
  | turn {u : State} {i : SlotId} {j : Job} {n : Nat} {g : RequestRole → Nat → Prop} (h : Turn u i j n g t)
      (slots : u.slots = s.slots) (interlock : u.interlock = s.interlock) (slot : s.slot i = some j)
  | placed {i : SlotId} {j : Job} (h : Placed s i j t) (slot : s.slot i = some j) (active : j.state = .active)
  | cancels {u v : State} (q : QueueId) (l : List SlotId) (slots : u.slots = s.slots)
      (interlock : u.interlock = s.interlock) (shift : Shift s u)
      (cancelled : v = l.foldl (State.cancelJob q) u) (after : Undisturbed v t)
  | reset (slots : ∀ i, t.slot i = none) (interlock : t.interlock = { table := [], waiters := [] })

theorem lockEffect_abort (s : State) (q : QueueId) : LockEffect s (s.abortQueue q) := by
  by_cases aborting : (s.queue q).state = .aborting
  · rw [abortQueue_aborting aborting]
    exact .undisturbed (undisturbed_of_same rfl rfl)
  · rw [abortQueue_eq aborting]
    generalize cancelled : (List.finRange 8).foldl (State.cancelJob q) (discarded s q) = v
    exact .cancels (u := discarded s q) (v := v) q _ rfl rfl (shift_discarded s q) cancelled.symm
      (undisturbed_of_same rfl rfl)

theorem lockEffect_offer {d : ReqId} (choice : s.extChoice = some (i, j, b)) : LockEffect s (s.offerRequest d i j b) := by
  obtain ⟨slot, hb, -⟩ := arbitrate_sound choice
  have put : ∀ {c : Burst}, lockView c = lockView b → JobsSound s → LocksKept s (s.setSlot i (some (j.putBurst c))) :=
    fun view jobs => locksKept_put slot rfl rfl (lockView_putBurst (JobSound.rising (jobs i j slot)) hb view)
  have given : ∀ {v : State} {n role a}, LocksKept v (v.giveId d i n role a) := fun {v n role a} =>
    locksKept_of_undisturbed (undisturbed_of_same rfl rfl)
  rcases offerRequest_cases s d i j b with e | ⟨r, -, -, e⟩ | ⟨w, -, -, e⟩ <;> rw [e]
  · exact .undisturbed (undisturbed_of_same rfl rfl)
  · exact .same rfl fun jobs => (put (c := b.setRead r .sent) rfl jobs).trans given
  · exact .same rfl fun jobs => (put (c := b.setWrite w .sent) rfl jobs).trans given

theorem happening_lockEffect (h : Happening s stores t) : LockEffect s t := by
  have same : ∀ {t : State}, t.slots = s.slots → t.interlock = s.interlock → LockEffect s t := fun slots interlock =>
    .undisturbed (undisturbed_of_same slots interlock)
  cases h with
  | stop q =>
    unfold State.stopQueue
    split <;> exact same rfl rfl
  | abort q => exact lockEffect_abort s q
  | take q c => exact .undisturbed (undisturbed_take s q c)
  | issue i j slot may =>
    rcases issueBurst_cases s i may with turn | placed
    · exact .turn turn rfl rfl slot
    · exact .placed placed slot ((mayIssue_iff j).1 may).1
  | bankRead p i j b r c k slot burst read waiting place =>
    have open_ : hasReturned r = false := by simp [hasReturned, ReadRequest.words?, waiting]
    obtain ⟨x, turn⟩ := turn_readReturns (s := s.setBankPointer p i) slot burst read open_ (s.memory.burstOutcome c k)
    exact .turn turn rfl rfl slot
  | bankWrite p i j b w c k slot burst write =>
    have turn := turn_writeDone (s := { s.setBankPointer p i with memory := s.memory.writeBurst c k w.words }) (i := i)
      burst write
    exact .turn turn rfl rfl slot
  | offer d i j b none free choice => exact lockEffect_offer choice
  | answer d o x y busy accepted given =>
    rcases turn_deliver (s.setReqId d x) o y with e | ⟨j, b, z, slot, -, -, turn⟩
    · rw [e]
      exact same rfl rfl
    · exact .turn turn rfl rfl slot
  | clear g v =>
    unfold State.writeTag
    split <;> exact same rfl rfl
  | icplth v =>
    unfold State.writeIcplth
    split <;> exact same rfl rfl
  | pop => exact .pop rfl
  | softReset => exact .reset slot_reset rfl
  | pinReset => exact .reset slot_reset rfl
  | _ => exact same rfl rfl

theorem lockEffect_interlockSound (h : LockEffect s t) (hs : InterlockSound s) : InterlockSound t := by
  cases h with
  | undisturbed h => exact interlockSound_of_same h.interlock hs
  | same interlock => exact interlockSound_of_same interlock hs
  | pop popped => exact popped ▸ interlockSound_of_same (interlock_popRecord s) hs
  | turn h slots interlock => exact interlockSound_turn h (interlockSound_of_same interlock hs)
  | placed h => exact interlockSound_placed h hs
  | cancels q l slots interlock shift cancelled after =>
    have all := interlockSound_cancels q l (interlockSound_of_same interlock hs)
    exact interlockSound_of_same after.interlock (cancelled ▸ all)
  | reset slots interlock =>
    rw [InterlockSound, interlock]
    exact ⟨⟨Nat.zero_le _, .nil⟩, nofun⟩

theorem locksKept_reset (slots : ∀ i, t.slot i = none) (interlock : t.interlock = { table := [], waiters := [] }) :
    LocksKept s t := by
  have none : ∀ i r, ¬HasRow (t.slot i) r := fun i r => not_hasRow_bare (slots i ▸ slotBare_none)
  refine ⟨fun _ => ⟨fun i r _ hr => absurd hr (none i r), fun i r hr => absurd hr (none i r), fun w hw => ?_⟩,
    fun _ _ => ⟨?_, fun e he => ?_, fun i r hr => absurd hr (none i r)⟩⟩
  · rw [interlock] at hw
    cases hw
  · rw [interlock]
    exact List.nodup_nil
  · rw [interlock] at he
    cases he

theorem lockEffect_locksKept (queues : QueuesSound s) (jobs : JobsSound s) (fifo : FifoSound s) (h : LockEffect s t) :
    LocksKept s t := by
  cases h with
  | undisturbed h => exact locksKept_of_undisturbed h
  | same _ kept => exact kept jobs
  | pop popped => exact popped ▸ locksKept_of_undisturbed (undisturbed_pop fifo jobs)
  | @turn u i j n g h slots interlock slot =>
    have moved : LocksKept s u := locksKept_of_undisturbed (undisturbed_of_same slots interlock)
    refine moved.trans (locksKept_turn h ?_ (jobs i j slot))
    rw [State.slot, slots]
    exact slot
  | @placed i j h slot active => exact locksKept_placed h slot (jobs i j slot) active
  | @cancels u v q l slots interlock shift cancelled after =>
    have jobs' : JobsSound u := fun i j hj => jobs i j (by rw [State.slot, ← slots]; exact hj)
    have all := locksKept_cancels q l (queuesSound_shift shift queues) jobs'
    exact ((locksKept_of_undisturbed (undisturbed_of_same slots interlock)).trans (cancelled ▸ all)).trans
      (locksKept_of_undisturbed after)
  | reset slots interlock => exact locksKept_reset slots interlock

/-! ### The invariants of the model -/

theorem locking_of_locksHeld (jobs : JobsSound s) (held : LocksHeld s) : Locking s := by
  obtain ⟨entries, waiters⟩ := held
  refine ⟨fun i r p hr hp same => ?_, fun i r hr old free => ?_, fun w hw => ?_⟩
  · obtain ⟨j, b, slot, hb, rfl⟩ := hr
    obtain ⟨k, c, slot', hc, rfl⟩ := hp
    cases Option.some.inj (slot.symm.trans slot')
    rw [eq_of_index (JobSound.rising (jobs i j slot)) hb hc same]
  · obtain ⟨j, b, slot, hb, rfl⟩ := hr
    exact entries i j b ⟨slot, hb⟩ old (of_decide_eq_false free)
  · obtain ⟨j, b, ⟨slot, hb⟩, running, old, index, wait, dests⟩ := waiters w hw
    refine ⟨j, b, slot, hb, ?_⟩
    simp only [rowOf, running, old, index, wait, dests, decide_true]

theorem locksHeld_of_locking (h : Locking s) : LocksHeld s := by
  obtain ⟨-, held, waiting⟩ := h
  refine ⟨fun i j b ⟨slot, hb⟩ old free => held i _ ⟨j, b, slot, hb, rfl⟩ old (decide_eq_false free), fun w hw => ?_⟩
  obtain ⟨j, b, slot, hb, row⟩ := waiting w hw
  exact ⟨j, b, ⟨slot, hb⟩, congrArg LockRow.running row, congrArg LockRow.old row, congrArg LockRow.index row,
    of_decide_eq_true (congrArg LockRow.waits row), congrArg LockRow.dests row⟩

theorem locksListed_iff (s : State) : LocksListed s ↔ Listing s := by
  constructor
  · rintro ⟨nodup, entries, listed⟩
    refine ⟨nodup, fun e he => ?_, fun i r hr waits => ?_⟩
    · obtain ⟨j, b, ⟨slot, hb⟩, old, index, free, dests⟩ := entries e he
      exact ⟨rowOf j b, ⟨j, b, slot, hb, rfl⟩, old, index, dests, decide_eq_false free⟩
    · obtain ⟨j, b, slot, hb, rfl⟩ := hr
      exact listed i j b ⟨slot, hb⟩ (of_decide_eq_true waits)
  · rintro ⟨nodup, entries, listed⟩
    refine ⟨nodup, fun e he => ?_, fun i j b ⟨slot, hb⟩ wait => listed i _ ⟨j, b, slot, hb, rfl⟩ (decide_eq_true wait)⟩
    obtain ⟨r, ⟨j, b, slot, hb, rfl⟩, old, index, dests, free⟩ := entries e he
    exact ⟨j, b, ⟨slot, hb⟩, old, index, of_decide_eq_false free, dests⟩

/-- Entries with distinct keys keep the destinations of the bursts that hold them apart (R103, R109). -/
theorem destinationsExclusive (table : TableSound s.interlock) (held : LocksHeld s) : DestinationsExclusive s := by
  intro i j b k l c hb hc hj hl hbs hcs same
  obtain ⟨e, he, rfl, hb, de⟩ := held.1 i j b hb hj hbs
  obtain ⟨f, hf, rfl, hc, df⟩ := held.1 k l c hc hl hcs
  have key : e.key = f.key := by simpa using de.symm.trans (same.trans df)
  have keys : (s.interlock.table.map LockRequest.key).Nodup := List.pairwise_map.2 table.2
  have entry : e = f := List.inj_on_of_nodup_map keys he hf key
  subst entry
  exact ⟨rfl, hb.symm.trans hc⟩

/-- Settles O55. -/
theorem interlockKept : Obligations.InterlockKept := by
  refine ⟨fun s t => kept_by_step (fun _ _ => id) fun hs h => lockEffect_interlockSound (happening_lockEffect h) hs,
    fun s t queues jobs fifo _ held listed h => ?_⟩
  obtain ⟨rest, stores, happening⟩ := happening_step h
  have kept := lockEffect_locksKept (s := s.withPending rest) queues jobs fifo (happening_lockEffect happening)
  exact (locksListed_iff t).2 (kept.2 (locking_of_locksHeld (s := s.withPending rest) jobs held)
    ((locksListed_iff (s.withPending rest)).1 listed))

/-- Settles O56. -/
theorem destinationsStayExclusive : Obligations.DestinationsStayExclusive := by
  intro s t queues jobs fifo sound held h
  obtain ⟨rest, stores, happening⟩ := happening_step h
  have effect := happening_lockEffect happening
  have kept := lockEffect_locksKept (s := s.withPending rest) queues jobs fifo effect
  have after := locksHeld_of_locking (kept.1 (locking_of_locksHeld (s := s.withPending rest) jobs held))
  exact ⟨after, destinationsExclusive (lockEffect_interlockSound (s := s.withPending rest) effect sound).1 after⟩

end Sys2Proof.Laws
